-- ==== Sys2Proof/Word.lean ====
section
/-! DEFINITION. The word types of the engine (spec/00_scope.md R7, R13): 32-bit state words and registers, 8-bit bytes,
and the 16-word arrays the spec uses for the context, the keystream buffer and the data windows. -/

namespace Sys2Proof

/-- A 32-bit unsigned word (`u32` of R13); `+` on it is addition modulo 2^32 and `^^^` is exclusive OR. -/
abbrev Word := BitVec 32

/-- An 8-bit byte (`u8` of R13). -/
abbrev Byte := BitVec 8

/-- Sixteen words: the context `s`, the buffer `ks`, the windows DIN and DOUT, the working array of the block function
(R18, R20, R26, R49, R50). -/
abbrev Words16 := Vector Word 16

end Sys2Proof
end

