-- ==== Sys2Proof/Syntax.lean ====
section
/-! DEFINITION. The commands of the engine: one constructor per row of spec/opcode_table.json (spec/30_encoding.md R93). -/

namespace Sys2Proof

/-- A command (R18: "a 32-bit word written to register CMD that the engine executes"). The operands that are not in the
word are the input registers KEY, NONCE, CTRIN and DIN (R90). -/
inductive Instr where
  /-- NOP (R180). -/
  | nop
  /-- SETUP with `KEYLEN`, the key length in bytes, an unsigned natural (R92, R110). -/
  | setup (keyLen : Nat)
  /-- SETCTR (R118). -/
  | setctr
  /-- GENBLK (R145). -/
  | genblk
  /-- PROCESS with `LEN`, the input length in bytes, an unsigned natural (R92, R160). -/
  | process (len : Nat)
  /-- CLRERR (R181). -/
  | clrerr
  deriving DecidableEq, Repr

end Sys2Proof
end

