-- ==== Sys2Proof/WellFormed.lean ====
section
/-! DEFINITION. Which commands the encoding can hold: ARG is 8 bits, "0 to 255" (spec/30_encoding.md R92). A length that is
encodable but not legal is well formed: it is executed and fails with the command's own error (R92). -/

namespace Sys2Proof

/-- The value of the ARG field a command needs (R93): its argument, or 0 where ARG must be 0. -/
def Instr.arg : Instr → Nat
  | .nop => 0
  | .setup keyLen => keyLen
  | .setctr => 0
  | .genblk => 0
  | .process len => len
  | .clrerr => 0

/-- The command's argument fits the 8-bit ARG field (R91, R92). -/
def Instr.wellFormed (i : Instr) : Bool := decide (i.arg < 256)

end Sys2Proof
end

