-- ==== Sys2Proof/Decode.lean ====
section
/-! DEFINITION. The decoder of spec/30_encoding.md R94, total on all 2^32 words, and the encoder written from R91 and R93. -/

namespace Sys2Proof

/-- Why a word is illegal (R95). All reasons lead to the same error, ILLEGAL_COMMAND; the names are the model's
(assumption 15). -/
inductive DecodeError where
  /-- RSV1, bits [31:16], is not 0. -/
  | rsv1NotZero
  /-- RSV0, bits [7:4], is not 0. -/
  | rsv0NotZero
  /-- OP in 0x6 to 0xF. -/
  | reservedOp
  /-- ARG is not 0 for an OP in 0x0, 0x2, 0x3, 0x5. -/
  | argNotZero
  deriving DecidableEq, Repr

/-- OP, bits [3:0] (R91). -/
def opField (v : Word) : BitVec 4 := v.extractLsb' 0 4

/-- RSV0, bits [7:4] (R91). -/
def rsv0Field (v : Word) : BitVec 4 := v.extractLsb' 4 4

/-- ARG, bits [15:8] (R91). -/
def argField (v : Word) : BitVec 8 := v.extractLsb' 8 8

/-- RSV1, bits [31:16] (R91). -/
def rsv1Field (v : Word) : BitVec 16 := v.extractLsb' 16 16

/-- A command whose ARG must be 0 (R94: `(arg == 0) ? … : Illegal`). -/
def whenArgZero (arg : Nat) (i : Instr) : Except DecodeError Instr :=
  if arg = 0 then .ok i else .error .argNotZero

/-- The opcode map of R93 for a word whose reserved fields are 0. -/
def decodeOp (op : BitVec 4) (arg : Nat) : Except DecodeError Instr :=
  if op = 0x0#4 then whenArgZero arg .nop
  else if op = 0x1#4 then .ok (.setup arg)
  else if op = 0x2#4 then whenArgZero arg .setctr
  else if op = 0x3#4 then whenArgZero arg .genblk
  else if op = 0x4#4 then .ok (.process arg)
  else if op = 0x5#4 then whenArgZero arg .clrerr
  else .error .reservedOp

/-- `decode` of R94: it depends on the word alone (R97). -/
def decode (v : Word) : Except DecodeError Instr :=
  if rsv1Field v ≠ 0 then .error .rsv1NotZero
  else if rsv0Field v ≠ 0 then .error .rsv0NotZero
  else decodeOp (opField v) (argField v).toNat

/-- The OP value of a command (R93). -/
def Instr.op : Instr → BitVec 4
  | .nop => 0x0#4
  | .setup _ => 0x1#4
  | .setctr => 0x2#4
  | .genblk => 0x3#4
  | .process _ => 0x4#4
  | .clrerr => 0x5#4

/-- The command word of a well-formed command: the fields RSV1, ARG, RSV0, OP of R91 from the top bit down. -/
def encode (i : Instr) : Word :=
  (0#16 ++ (BitVec.ofNat 8 i.arg ++ (0#4 ++ i.op) : BitVec 16) : BitVec 32)

/-- The 32-bit command word that a table row's `nbits` bits of `w` stand for: every bit above `nbits` is 0, and there is one
word per command (R90). -/
def tableWord (nbits w : Nat) : Word := BitVec.ofNat 32 (w % 2 ^ nbits)

/-- The command the decoder reads from a table row's word, none where it is illegal. -/
def decodeTableWord (nbits w : Nat) : Option Instr :=
  match decode (tableWord nbits w) with
  | .ok i => some i
  | .error _ => none

end Sys2Proof
end

