-- ==== Sys2Proof/Config.lean ====
section
/-! DEFINITION. The build parameters of spec/00_scope.md section 4 (R7 to R12) and the constants the spec fixes.
The parameters BASE, CARRY_MODE and CMD_LATENCY are plain data carried by the state (R53: "and the parameters"), so that a
statement about every state is a statement about every build (U1, D2, D17) and the machine still evaluates on numerals.
The spec leaves no value of an instruction undefined, so there is no free value here (INVENTORY.md). -/

namespace Sys2Proof

/-- `CARRY_MODE` of R11: how far the carry of the block counter goes. -/
inductive CarryMode where
  /-- 64, the default: the carry out of word 13 is dropped (R138). -/
  | c64
  /-- 128: the carry continues into words 14 and 15 (R139). -/
  | c128
  deriving DecidableEq, Repr

/-- The parameters one engine is built with (R9, R11, R12); no step writes them. -/
structure Config where
  /-- `BASE / 256`: BASE is a multiple of 256 by construction (R9). -/
  basePage : Nat
  /-- `CARRY_MODE` (R11). -/
  carryMode : CarryMode
  /-- `CMD_LATENCY` (R12): open, and read by no rule. -/
  cmdLatency : Nat
  deriving DecidableEq, Repr

namespace Config

/-- `BASE` (R9), the bus address of the register window. -/
def base (c : Config) : Nat := 256 * c.basePage

/-- The build of `State.reset`: CARRY_MODE 64 is the spec's default (R11).
DESIGN CHOICE (assumption 6): BASE and CMD_LATENCY are open in the spec and stand at 0 here. -/
def default : Config := { basePage := 0, carryMode := .c64, cmdLatency := 0 }

/-- The size in bytes of the register window (R60). -/
def windowBytes : Nat := 256

/-- `MAX_LEN` (R10). -/
def maxLen : Nat := 64

/-- The round count, fixed at 20 (R8). -/
def rounds : Nat := 20

/-- The constant register ID reads (R41). -/
def idValue : Word := 0x43433230#32

end Config

end Sys2Proof
end

