-- ==== Sys2Proof/Machine/State.lean ====
section
/-! DEFINITION. The state of the engine as spec/10_state.md R53 lists it, the reset values of R52, and the host's side of the
bus as plain data: the accesses that have arrived and are not yet served, and the answers given so far. -/

namespace Sys2Proof.Machine

/-- The width of a bus access: R63 accepts 32 bits alone and names the others it refuses. -/
inductive AccessWidth where
  | bits8
  | bits16
  | bits32
  | bits64
  | burst
  deriving DecidableEq, Repr

/-- What the outside world does to the engine: `MemRead`, `MemWrite` (R14, R60) or a reset (R220). The 32 bits of `data` are
what a 32-bit write carries; the data of a write of another width reaches nothing (R63; assumption 12). -/
inductive BusEvent where
  | read (width : AccessWidth) (addr : Nat)
  | write (width : AccessWidth) (addr : Nat) (data : Word)
  | reset
  deriving DecidableEq, Repr

/-- The engine's answer to one access (R65 to R67). -/
inductive BusResponse where
  /-- A read that returns its register's value (R65). -/
  | readOk (data : Word)
  /-- A bus-error read and the data it returns (R67). -/
  | readError (data : Word)
  /-- A write that reached its register or executed its command (R66). -/
  | writeOk
  /-- A bus-error write, which stores nothing (R67). -/
  | writeError
  deriving DecidableEq, Repr

/-- The state (R53). `pending` and `responses` are the model's own fields (assumptions 1 and 4). -/
structure State where
  /-- The build parameters (R9, R11, R12). -/
  cfg : Config
  /-- The context words s[0] to s[15] (R20). -/
  s : Words16
  /-- The keystream buffer ks[0] to ks[15] (R26). -/
  ks : Words16
  /-- AVAIL (R28). -/
  avail : Nat
  /-- READY (R32). -/
  ready : Bool
  /-- LAST_ERR (R33). -/
  lastErr : BitVec 4
  /-- ERR_STICKY (R33). -/
  errSticky : Bool
  /-- KEY0 to KEY7 (R45). -/
  key : Vector Word 8
  /-- NONCE0 and NONCE1 (R46). -/
  nonceIn : Vector Word 2
  /-- CTRIN0 and CTRIN1 (R47). -/
  ctrIn : Vector Word 2
  /-- DIN0 to DIN15 (R49). -/
  din : Words16
  /-- DOUT0 to DOUT15 (R50). -/
  dout : Words16
  /-- The events that have arrived and are not yet served, the first to arrive first (R72). -/
  pending : List BusEvent
  /-- The answers given so far, the newest first. -/
  responses : List BusResponse
  deriving DecidableEq, Repr

/-- The machine stops with a fault. -/
inductive Fault where
  /-- Raised by the step when the pending access is at an address outside BASE to BASE + 0xFF, which is not the engine's
  (R60, R77). Safe: the engine's rules say nothing of such an access, and the model claims nothing after it (assumption 5). -/
  | outsideWindow
  deriving DecidableEq, Repr

/-- The machine refuses a command. -/
inductive Refusal where
  /-- Raised by an arm of `exec` whose instruction has no meaning yet; safe. No arm uses it in this model. -/
  | notModelled (mnemonic : String)
  deriving DecidableEq, Repr

/-- Sixteen zero words. -/
def zeros16 : Words16 := #v[0, 0, 0, 0, 0, 0, 0, 0, 0, 0, 0, 0, 0, 0, 0, 0]

/-- The state right after reset of an engine built with `c`: the table of R52, with no event pending and no answer given. -/
def State.resetWith (c : Config) : State where
  cfg := c
  s := zeros16
  ks := zeros16
  avail := 0
  ready := false
  lastErr := 0
  errSticky := false
  key := #v[0, 0, 0, 0, 0, 0, 0, 0]
  nonceIn := #v[0, 0]
  ctrIn := #v[0, 0]
  din := zeros16
  dout := zeros16
  pending := []
  responses := []

/-- The machine right after reset (R52, R220), for the build `Config.default`. -/
def State.reset : State := State.resetWith Config.default

end Sys2Proof.Machine
end

