-- ==== Sys2Proof/Machine/Flags.lean ====
section
/-! DEFINITION. The status state: the error codes (spec/60_exceptions.md R191), the fields a successful command writes (R198),
and the words STATUS (spec/10_state.md R43) and CONFIG (R42) as functions of the state. -/

namespace Sys2Proof.Machine

/-- The errors a command can raise (R191). -/
inductive CmdError where
  /-- A CMD write whose word decodes as Illegal (R194). -/
  | illegalCommand
  /-- SETUP with KEYLEN not 16 and not 32 (R195). -/
  | invalidKeyLength
  /-- SETCTR, GENBLK or PROCESS with READY = 0 (R196). -/
  | notInitialized
  /-- PROCESS with LEN > 64 (R197). -/
  | lengthTooLarge
  deriving DecidableEq, Repr

/-- The code LAST_ERR takes (R191). -/
def CmdError.code : CmdError → BitVec 4
  | .illegalCommand => 1
  | .invalidKeyLength => 2
  | .notInitialized => 3
  | .lengthTooLarge => 4

/-- A command that succeeds writes LAST_ERR <- 0 and leaves ERR_STICKY unchanged (R198). -/
def succeed (s : State) : State := { s with lastErr := 0 }

/-- A command that fails writes LAST_ERR <- code and ERR_STICKY <- 1 (R192). -/
def recordError (code : BitVec 4) (s : State) : State := { s with lastErr := code, errSticky := true }

/-- STATUS of R43: `zext_32({AVAIL[6:0], LAST_ERR[3:0], 0b00, ERR_STICKY, READY})`. -/
def statusWord (s : State) : Word :=
  (BitVec.ofNat 7 s.avail ++ (s.lastErr ++ (0#2 ++ (BitVec.ofBool s.errSticky ++ BitVec.ofBool s.ready : BitVec 2)
    : BitVec 4) : BitVec 8) : BitVec 15).setWidth 32

/-- CARRY128, bit 0 of CONFIG (R42). -/
def carry128Bit : CarryMode → BitVec 1
  | .c64 => 0
  | .c128 => 1

/-- CONFIG of R42: ROUNDS in bits [23:16], MAXLEN in bits [15:8], CARRY128 in bit 0, every other bit 0. -/
def configWord (c : Config) : Word :=
  (0#8 ++ (BitVec.ofNat 8 Config.rounds ++ (BitVec.ofNat 8 Config.maxLen ++ (0#7 ++ carry128Bit c.carryMode : BitVec 8)
    : BitVec 16) : BitVec 24) : BitVec 32)

end Sys2Proof.Machine
end

