-- ==== Sys2Proof/Machine/Operands.lean ====
section
/-! DEFINITION. The operand forms: bytes of a word array, packing of bytes into words, the counter and nonce words as numbers,
and the constant words (spec/00_scope.md R13, R14; spec/10_state.md R21 to R26; spec/20_memory.md R68, R69). -/

namespace Sys2Proof.Machine

/-- `rotl(v, n)` of R13: the 32-bit circular left rotation for 0 < n < 32. -/
def rotl (v : Word) (n : Nat) : Word := (v <<< n) ||| (v >>> (32 - n))

/-- `byte(W, j)` and `ksbyte(j)` of R14: byte j of a word array in little-endian order, bits [8*(j mod 4)+7 : 8*(j mod 4)] of
word j / 4 (R68, R69). -/
def byteAt {n : Nat} (w : Vector Word n) (j : Nat) : Byte :=
  (w[j / 4]?.getD 0).extractLsb' (8 * (j % 4)) 8

/-- The word whose byte lanes 0 to 3 are the four bytes (R69). -/
def wordOfBytes (b0 b1 b2 b3 : Byte) : Word := (b3 ++ (b2 ++ (b1 ++ b0 : BitVec 16) : BitVec 24) : BitVec 32)

/-- The 64-byte window that holds the bytes in order from byte 0 and zero in the remaining bytes (R68, R167). -/
def packBytes (bs : List Byte) : Words16 :=
  Vector.ofFn fun i =>
    wordOfBytes (bs.getD (4 * i.val) 0) (bs.getD (4 * i.val + 1) 0) (bs.getD (4 * i.val + 2) 0) (bs.getD (4 * i.val + 3) 0)

/-- The 64-bit block counter, word 13 the high half (R23). -/
def counter64 (s : Words16) : BitVec 64 := s[13] ++ s[12]

/-- The counter and nonce words as one 128-bit little-endian number (R139). -/
def counter128 (s : Words16) : BitVec 128 := (s[15] ++ s[14] : BitVec 64) ++ (s[13] ++ s[12] : BitVec 64)

/-- The 64-bit value in CTRIN, CTRIN1 the high half (R47). -/
def ctrInValue (s : State) : BitVec 64 := s.ctrIn[1] ++ s.ctrIn[0]

/-- Words 0 to 3 for a 32-byte key: "expand 32-byte k" (R21; assumption 10). -/
def constants32 : Vector Word 4 := #v[0x61707865, 0x3320646E, 0x79622D32, 0x6B206574]

/-- Words 0 to 3 for a 16-byte key: "expand 16-byte k" (R21; assumption 10). -/
def constants16 : Vector Word 4 := #v[0x61707865, 0x3120646E, 0x79622D36, 0x6B206574]

/-- The 16 context words from constants, the two halves of the key region, and a nonce, with the block counter 0
(R20, R110, R114). -/
def contextWords (consts k0 k1 : Vector Word 4) (nonce : Vector Word 2) : Words16 :=
  #v[consts[0], consts[1], consts[2], consts[3], k0[0], k0[1], k0[2], k0[3], k1[0], k1[1], k1[2], k1[3], 0, 0, nonce[0], nonce[1]]

/-- KEY0 to KEY3 (R45). -/
def keyLow (s : State) : Vector Word 4 := #v[s.key[0], s.key[1], s.key[2], s.key[3]]

/-- KEY4 to KEY7 (R45). -/
def keyHigh (s : State) : Vector Word 4 := #v[s.key[4], s.key[5], s.key[6], s.key[7]]

end Sys2Proof.Machine
end

