-- ==== Sys2Proof/Machine/Ops.lean ====
section
/-! DEFINITION. The operations the commands share: raising a command error and clearing it (spec/60_exceptions.md R192, R193,
R204), the block function (spec/41_block.md R132 to R135), the counter advance (R138, R139) and the generation of a block into
the keystream buffer (spec/42_stream.md R164). -/

namespace Sys2Proof.Machine

/-! ### Errors -/

/-- `raise` of R14: the only effects of an error are LAST_ERR and ERR_STICKY (R192), and for INVALID_KEY_LENGTH also READY <- 0
and AVAIL <- 0 (R193). It saves no state, changes no mode and transfers no control (R204). -/
def raise (e : CmdError) (s : State) : State :=
  match e with
  | .illegalCommand => recordError e.code s
  | .invalidKeyLength => { recordError e.code s with ready := false, avail := 0 }
  | .notInitialized => recordError e.code s
  | .lengthTooLarge => recordError e.code s

/-- The "return" from errors, CLRERR (R204, R181): ERR_STICKY <- 0 and LAST_ERR <- 0. -/
def clearErrors (s : State) : State := { s with errSticky := false, lastErr := 0 }

/-! ### The block function -/

/-- The four words of a quarter-round. -/
structure Quarter where
  a : Word
  b : Word
  c : Word
  d : Word
  deriving DecidableEq, Repr

/-- The quarter-round on words (a, b, c, d) (R132). -/
def quarterRound (a b c d : Word) : Quarter :=
  let a := a + b
  let d := rotl (d ^^^ a) 16
  let c := c + d
  let b := rotl (b ^^^ c) 12
  let a := a + b
  let d := rotl (d ^^^ a) 8
  let c := c + d
  let b := rotl (b ^^^ c) 7
  ⟨a, b, c, d⟩

/-- `QR(x, a, b, c, d)` of R132 on a working array, for four distinct indices. -/
def qr (x : Words16) (a b c d : Fin 16) : Words16 :=
  let q := quarterRound x[a] x[b] x[c] x[d]
  (((x.set a q.a).set b q.b).set c q.c).set d q.d

/-- The column round (R133). -/
def columnRound (x : Words16) : Words16 :=
  qr (qr (qr (qr x 0 4 8 12) 1 5 9 13) 2 6 10 14) 3 7 11 15

/-- The diagonal round (R134). -/
def diagonalRound (x : Words16) : Words16 :=
  qr (qr (qr (qr x 0 5 10 15) 1 6 11 12) 2 7 8 13) 3 4 9 14

/-- `n` double-rounds, each a column round followed by a diagonal round (R134). -/
def doubleRounds : Nat → Words16 → Words16
  | 0, x => x
  | n + 1, x => doubleRounds n (diagonalRound (columnRound x))

/-- `Block(s)` of R135: 10 double-rounds on a copy of the state words, then the feed-forward. -/
def block (s : Words16) : Words16 :=
  let x := doubleRounds (Config.rounds / 2) s
  Vector.ofFn fun i => x[i] + s[i]

/-! ### The counter -/

/-- `Advance()` of R138 (CARRY_MODE 64) and R139 (CARRY_MODE 128) on the state words. -/
def advance (mode : CarryMode) (s : Words16) : Words16 :=
  let s := s.set 12 (s[12] + 1)
  if s[12] = 0 then
    let s := s.set 13 (s[13] + 1)
    match mode with
    | .c64 => s
    | .c128 =>
      if s[13] = 0 then
        let s := s.set 14 (s[14] + 1)
        if s[14] = 0 then s.set 15 (s[15] + 1) else s
      else s
  else s

/-- The counter advance of a command that has generated a block (R137, R140). -/
def advanceCounter (s : State) : State := { s with s := advance s.cfg.carryMode s.s }

/-- Step 3 of PROCESS up to the XOR: the block of the state before the advance is stored whole in ks and the counter advances
(R140, R164). -/
def generate (s : State) : State := advanceCounter { s with ks := block s.s }

end Sys2Proof.Machine
end

