-- ==== Sys2Proof/Machine/Bus.lean ====
section
/-! DEFINITION. The host interface: the register map (spec/20_memory.md R61, R62), what a read returns and a write stores
(R65, R66), the accesses that are bus errors (R62 to R64, R66, R67), and reset (spec/70_reset_and_hazards.md R220). -/

namespace Sys2Proof.Machine

/-- The registers of R40, with their access rights: read-only (RO), write-only (WO), read-write (RW). `state i` is
STATE(12 + i). What the rights mean on the bus is said by `readReg` (R65) and `writeReg` (R66). -/
inductive Reg where
  /-- RO, R41. -/
  | id
  /-- WO, R44. -/
  | cmd
  /-- RO, R43. -/
  | status
  /-- RO, R42. -/
  | config
  /-- WO, R45. -/
  | key (i : Fin 8)
  /-- RW, R46. -/
  | nonce (i : Fin 2)
  /-- RW, R47. -/
  | ctrin (i : Fin 2)
  /-- RO, R48. -/
  | state (i : Fin 4)
  /-- RW, R49. -/
  | din (i : Fin 16)
  /-- RO, R50. -/
  | dout (i : Fin 16)
  deriving DecidableEq, Repr

/-- The offset column of the register map (R61), `off(reg)` of R98. -/
def Reg.offset : Reg → Nat
  | .id => 0x000
  | .cmd => 0x004
  | .status => 0x008
  | .config => 0x00C
  | .key i => 0x020 + 4 * i.val
  | .nonce i => 0x040 + 4 * i.val
  | .ctrin i => 0x048 + 4 * i.val
  | .state i => 0x050 + 4 * i.val
  | .din i => 0x080 + 4 * i.val
  | .dout i => 0x0C0 + 4 * i.val

/-- The register with index `k` in an array of `n + 1` registers. -/
def regIndexed {n : Nat} (mk : Fin (n + 1) → Reg) (k : Nat) : Option Reg := some (mk (Fin.ofNat (n + 1) k))

/-- The register at word `w` of the window, offset 4 * w, read from the register map (R61); none at a reserved offset (R62). -/
def regAtWord (w : Nat) : Option Reg :=
  if w = 0 then some .id
  else if w = 1 then some .cmd
  else if w = 2 then some .status
  else if w = 3 then some .config
  else if w < 8 then none
  else if w < 16 then regIndexed .key (w - 8)
  else if w < 18 then regIndexed .nonce (w - 16)
  else if w < 20 then regIndexed .ctrin (w - 18)
  else if w < 24 then regIndexed .state (w - 20)
  else if w < 32 then none
  else if w < 48 then regIndexed .din (w - 32)
  else if w < 64 then regIndexed .dout (w - 48)
  else none

/-- The register at byte offset `off` of the window; none at an unaligned (R64) or reserved (R62) offset. -/
def regAt (off : Nat) : Option Reg := if off % 4 = 0 then regAtWord (off / 4) else none

/-- The value a read of the register returns: its stored value (RW), the value of its rule (RO), or 0 (WO) (R65). -/
def readReg (r : Reg) (s : State) : Word :=
  match r with
  | .id => Config.idValue
  | .cmd => 0
  | .status => statusWord s
  | .config => configWord s.cfg
  | .key _ => 0
  | .nonce i => s.nonceIn[i]
  | .ctrin i => s.ctrIn[i]
  | .state i => s.s[12 + i.val]
  | .din i => s.din[i]
  | .dout i => s.dout[i]

/-- What serving one event comes to. -/
inductive Served where
  /-- The event is served; no command runs. -/
  | done (s : State)
  /-- The event wrote this word to CMD: the command is still to be executed on this state. -/
  | command (v : Word) (s : State)
  /-- The address is not the engine's. -/
  | outside
  deriving DecidableEq, Repr

/-- Where an access goes. -/
inductive Target where
  /-- Outside BASE to BASE + 0xFF. -/
  | outside
  /-- Refused by the bus interface (R62, R63, R64). -/
  | busError
  /-- A register. -/
  | reg (r : Reg)
  deriving DecidableEq, Repr

/-- The target of an access of this width at this bus address: the window (R60), the width (R63), the alignment (R64) and the
register map (R61, R62). -/
def locate (c : Config) (width : AccessWidth) (addr : Nat) : Target :=
  if addr < c.base ∨ c.base + Config.windowBytes ≤ addr then .outside
  else if width = .bits32 then
    match regAt (addr - c.base) with
    | some r => .reg r
    | none => .busError
  else .busError

/-- The engine answers an access. -/
def answer (r : BusResponse) (s : State) : State := { s with responses := r :: s.responses }

/-- A read (R65): it changes no engine state; a bus-error read returns 0 (R67). -/
def serveRead (t : Target) (s : State) : Served :=
  match t with
  | .outside => .outside
  | .busError => .done (answer (.readError 0) s)
  | .reg r => .done (answer (.readOk (readReg r s)) s)

/-- A write to a register (R66): CMD carries a command, an RW or WO register stores the whole word, an RO register is a bus
error and stores nothing. -/
def writeReg (r : Reg) (v : Word) (s : State) : Served :=
  match r with
  | .id => .done (answer .writeError s)
  | .cmd => .command v (answer .writeOk s)
  | .status => .done (answer .writeError s)
  | .config => .done (answer .writeError s)
  | .key i => .done (answer .writeOk { s with key := s.key.set i v })
  | .nonce i => .done (answer .writeOk { s with nonceIn := s.nonceIn.set i v })
  | .ctrin i => .done (answer .writeOk { s with ctrIn := s.ctrIn.set i v })
  | .state _ => .done (answer .writeError s)
  | .din i => .done (answer .writeOk { s with din := s.din.set i v })
  | .dout _ => .done (answer .writeError s)

/-- A write (R66, R67). -/
def serveWrite (t : Target) (v : Word) (s : State) : Served :=
  match t with
  | .outside => .outside
  | .busError => .done (answer .writeError s)
  | .reg r => writeReg r v s

/-- A reset (R220): every piece of engine state takes its reset value; the build, the accesses still to come and the answers
already given are not engine state and stay (assumption 8). -/
def resetEngine (s : State) : State :=
  { State.resetWith s.cfg with pending := s.pending, responses := s.responses }

/-- Serving one event. -/
def serve (e : BusEvent) (s : State) : Served :=
  match e with
  | .read width addr => serveRead (locate s.cfg width addr) s
  | .write width addr v => serveWrite (locate s.cfg width addr) v s
  | .reset => .done (resetEngine s)

/-- With no event pending the engine waits (R220; assumption 3). -/
def idle (s : State) : State := s

/-- A CMD write whose word is illegal (R94, R194). -/
def illegalCommand (s : State) : State := raise .illegalCommand s

end Sys2Proof.Machine
end

