-- ==== Sys2Proof/Machine/Block.lean ====
section
/-! DEFINITION. Block generation: GENBLK (spec/41_block.md R145 to R147). -/

namespace Sys2Proof.Machine

/-- GENBLK (R145): DOUT <- Block(s) of the state before the advance, then the counter advances; ks and AVAIL are unchanged
(R146). -/
def execGenblk (s : State) : Host.Outcome State Fault Refusal :=
  if s.ready then .next (succeed (advanceCounter { s with dout := block s.s }))
  else .next (raise .notInitialized s)

end Sys2Proof.Machine
end

