-- ==== Sys2Proof/Machine/Control.lean ====
section
/-! DEFINITION. The housekeeping commands NOP and CLRERR (spec/43_control.md R180, R181). -/

namespace Sys2Proof.Machine

/-- NOP (R180): LAST_ERR <- 0. -/
def execNop (s : State) : Host.Outcome State Fault Refusal := .next (succeed s)

/-- CLRERR (R181): ERR_STICKY <- 0; LAST_ERR <- 0. -/
def execClrerr (s : State) : Host.Outcome State Fault Refusal := .next (clearErrors s)

end Sys2Proof.Machine
end

