-- ==== Sys2Proof/Machine/Setup.lean ====
section
/-! DEFINITION. Context setup and counter control: SETUP and SETCTR (spec/40_setup_counter.md R110 to R120). -/

namespace Sys2Proof.Machine

/-- The common part of a successful SETUP, given the 16 context words (R114). -/
def installContext (ctx : Words16) (s : State) : State :=
  succeed { s with s := ctx, ks := zeros16, avail := 0, ready := true }

/-- SETUP (R110): the 32-byte path (R112), the 16-byte path (R113), and INVALID_KEY_LENGTH for every other length (R111). -/
def execSetup (keyLen : Nat) (s : State) : Host.Outcome State Fault Refusal :=
  if keyLen = 32 then
    .next (installContext (contextWords constants32 (keyLow s) (keyHigh s) s.nonceIn) s)
  else if keyLen = 16 then
    .next (installContext (contextWords constants16 (keyLow s) (keyLow s) s.nonceIn) s)
  else .next (raise .invalidKeyLength s)

/-- SETCTR (R118, R119): s[12] and s[13] from CTRIN; the buffered keystream is discarded. -/
def execSetctr (s : State) : Host.Outcome State Fault Refusal :=
  if s.ready then
    .next (succeed { s with s := (s.s.set 12 s.ctrIn[0]).set 13 s.ctrIn[1], ks := zeros16, avail := 0 })
  else .next (raise .notInitialized s)

end Sys2Proof.Machine
end

