-- ==== Sys2Proof/Machine/Stream.lean ====
section
/-! DEFINITION. Streaming encrypt and decrypt: PROCESS (spec/42_stream.md R160 to R167, R171). -/

namespace Sys2Proof.Machine

/-- Step 2 of PROCESS n (R163): the first min(n, AVAIL) output bytes, from the tail of the buffer, and AVAIL lowered by as
many. With AVAIL = 0 there are none and nothing changes. -/
def consumeTail (n : Nat) (s : State) : List Byte × State :=
  let k := min n s.avail
  let off := 64 - s.avail
  ((List.range k).map fun j => byteAt s.din j ^^^ byteAt s.ks (off + j), { s with avail := s.avail - k })

/-- Step 3 of PROCESS n with i bytes done (R164, R165): a fresh block, the remaining n - i output bytes from its front, and
AVAIL <- 64 - (n - i). -/
def consumeFresh (i n : Nat) (s : State) : List Byte × State :=
  let m := n - i
  let t := generate s
  ((List.range m).map fun j => byteAt t.din (i + j) ^^^ byteAt t.ks j, { t with avail := 64 - m })

/-- The output bytes of PROCESS n and the state after steps 2 and 3 (R161); at most one block is generated (R166). -/
def stream (n : Nat) (s : State) : List Byte × State :=
  let tail := consumeTail n s
  let i := min n s.avail
  if i < n then
    let fresh := consumeFresh i n tail.2
    (tail.1 ++ fresh.1, fresh.2)
  else tail

/-- PROCESS (R161): errors in the order of R171, the empty input (R162), and otherwise the stream's bytes in DOUT with zero
behind them (R167). -/
def execProcess (len : Nat) (s : State) : Host.Outcome State Fault Refusal :=
  if Config.maxLen < len then .next (raise .lengthTooLarge s)
  else if s.ready then
    if len = 0 then .next (succeed s)
    else
      let p := stream len s
      .next (succeed { p.2 with dout := packBytes p.1 })
  else .next (raise .notInitialized s)

end Sys2Proof.Machine
end

