-- ==== Sys2Proof/Machine/Dispatch.lean ====
section
/-! DEFINITION. Executing one command: one arm per row of spec/opcode_table.json. -/

namespace Sys2Proof.Machine

def exec (i : Instr) (s : State) : Host.Outcome State Fault Refusal :=
  match i with
  | .nop => Sys2Proof.Machine.execNop s
  | .setup keyLen => Sys2Proof.Machine.execSetup keyLen s
  | .setctr => Sys2Proof.Machine.execSetctr s
  | .genblk => Sys2Proof.Machine.execGenblk s
  | .process len => Sys2Proof.Machine.execProcess len s
  | .clrerr => Sys2Proof.Machine.execClrerr s

end Sys2Proof.Machine
end

