-- ==== Sys2Proof/Machine/Step.lean ====
section
/-! DEFINITION. One step: the first pending event is served, whole, before the next (spec/20_memory.md R72). The engine has no
program counter; its "fetch" is a host write to CMD, and the step "executes the command word written" (spec/10_state.md R51).
-/

namespace Sys2Proof.Machine

/-- `on MemWrite(BASE + 0x004, 4, v)` of R94: decode, then the error ILLEGAL_COMMAND or the command. -/
def runCommand (v : Word) (s : State) : Host.Outcome State Fault Refusal :=
  match decode v with
  | .ok i => exec i s
  | .error _ => .next (illegalCommand s)

/-- What the step makes of a served event. -/
def finish : Served → Host.Outcome State Fault Refusal
  | .done s => .next s
  | .command v s => runCommand v s
  | .outside => .fault .outsideWindow

/-- One step of the machine. -/
def step (s : State) : Host.Outcome State Fault Refusal :=
  match s.pending with
  | [] => .next (idle s)
  | e :: rest => finish (serve e { s with pending := rest })

/-- The state in which the very next access to arrive is the host's write of the table word to CMD (assumption 2). -/
def State.withFetchWord (s : State) (nbits w : Nat) : State :=
  { s with pending := .write .bits32 (s.cfg.base + Reg.cmd.offset) (tableWord nbits w) :: s.pending }

end Sys2Proof.Machine
end

