-- ==== Sys2Proof/Machine/HostProgram.lean ====
section
/-! DEFINITION. The assembler lines and pseudo-instructions of spec/30_encoding.md R98 and R99 as the bus accesses they stand
for. They add nothing to the machine (D30: "Not semantic"); they say what a host program puts on the bus. -/

namespace Sys2Proof.Machine

/-- A line of a host program (R98) or a pseudo-instruction (R99). -/
inductive HostLine where
  /-- `WR <reg>, <imm32>`. -/
  | wr (r : Reg) (v : Word)
  /-- `RD <reg>`. -/
  | rd (r : Reg)
  /-- A command mnemonic, NOP to CLRERR, with its byte count. -/
  | command (i : Instr)
  /-- `.cmd <imm32>`: any word, also an illegal one. -/
  | cmdWord (v : Word)
  /-- `ENCRYPT <len>`. -/
  | encrypt (len : Nat)
  /-- `DECRYPT <len>`. -/
  | decrypt (len : Nat)
  /-- `LDKEY32 k0, ..., k7`. -/
  | ldkey32 (k : Vector Word 8)
  /-- `LDKEY16 k0, k1, k2, k3`. -/
  | ldkey16 (k : Vector Word 4)
  /-- `LDNONCE n0, n1`. -/
  | ldnonce (n0 n1 : Word)
  /-- `SEEK <c64>`. -/
  | seek (c : BitVec 64)
  /-- `LDIN w0, ..., wk` with k <= 15. -/
  | ldin (w : List Word)
  deriving DecidableEq, Repr

/-- `MemWrite(BASE + off(reg), 4, v)` (R98). -/
def busWrite (c : Config) (r : Reg) (v : Word) : BusEvent := .write .bits32 (c.base + r.offset) v

/-- `MemRead(BASE + off(reg), 4)` (R98). -/
def busRead (c : Config) (r : Reg) : BusEvent := .read .bits32 (c.base + r.offset)

/-- Writes of the words to the registers `mk 0`, `mk 1`, … of an array. -/
def busWrites {n : Nat} (c : Config) (mk : Fin (n + 1) → Reg) (ws : List Word) : List BusEvent :=
  ws.zipIdx.map fun p => busWrite c (mk (Fin.ofNat (n + 1) p.2)) p.1

/-- The accesses a line stands for (R98, R99). -/
def HostLine.accesses (c : Config) : HostLine → List BusEvent
  | .wr r v => [busWrite c r v]
  | .rd r => [busRead c r]
  | .command i => [busWrite c .cmd (encode i)]
  | .cmdWord v => [busWrite c .cmd v]
  | .encrypt len => [busWrite c .cmd (encode (.process len))]
  | .decrypt len => [busWrite c .cmd (encode (.process len))]
  | .ldkey32 k => busWrites c .key k.toList
  | .ldkey16 k => busWrites c .key k.toList
  | .ldnonce n0 n1 => [busWrite c (.nonce 0) n0, busWrite c (.nonce 1) n1]
  | .seek v =>
    [busWrite c (.ctrin 0) (v.extractLsb' 0 32), busWrite c (.ctrin 1) (v.extractLsb' 32 32), busWrite c .cmd (encode .setctr)]
  | .ldin w => busWrites c .din (w.take 16)

end Sys2Proof.Machine
end

