-- ==== Sys2Proof/Safety.lean ====
section
/-! DEFINITION. The terms claims use: the invariant of the machine (spec/10_state.md R54, R30; spec/60_exceptions.md R191, R33),
runs of several steps, and the states reached from reset by any sequence of host events. -/

namespace Sys2Proof.Machine

/-- Words 0 to 3 of the context are these constants. -/
def HasConstants (s : Words16) (consts : Vector Word 4) : Prop :=
  s[0] = consts[0] ∧ s[1] = consts[1] ∧ s[2] = consts[2] ∧ s[3] = consts[3]

/-- Two contexts that differ at most in the words a counter advance of this mode may write (R25, R138, R139). -/
def SameButCounter (mode : CarryMode) (w s : Words16) : Prop :=
  (∀ i : Fin 16, i.val < 12 → w[i] = s[i]) ∧ (mode = .c64 → w[14] = s[14] ∧ w[15] = s[15])

/-- The invariant of R54. -/
structure State.Inv (s : State) : Prop where
  /-- R54 (a), R30: 64 is never reached. -/
  availLe : s.avail ≤ 63
  /-- R54 (b): a ready context holds one of the two constant sets of R21. -/
  constants : s.ready = true → HasConstants s.s constants32 ∨ HasConstants s.s constants16
  /-- R54 (b): with the 16-byte set the key words are replicated. -/
  replicated : s.ready = true → HasConstants s.s constants16 →
    s.s[4] = s.s[8] ∧ s.s[5] = s.s[9] ∧ s.s[6] = s.s[10] ∧ s.s[7] = s.s[11]
  /-- R54 (c): buffered bytes exist only in a ready context. -/
  availReady : 0 < s.avail → s.ready = true
  /-- R54 (c): the buffer then holds a block of this context at some earlier value of the counter words. -/
  buffered : 0 < s.avail → ∃ w : Words16, SameButCounter s.cfg.carryMode w s.s ∧ s.ks = block w
  /-- R191: codes 5 to 15 are never recorded. -/
  lastErrLe : s.lastErr ≤ 4
  /-- R192, R33: a recorded error has set ERR_STICKY. -/
  errorSticks : s.lastErr ≠ 0 → s.errSticky = true

/-- `k` steps, stopping at the first fault or refusal. -/
def run : Nat → State → Host.Outcome State Fault Refusal
  | 0, s => .next s
  | k + 1, s =>
    match step s with
    | .next t => run k t
    | .fault f => .fault f
    | .refused r => .refused r

/-- The states an engine reaches from reset, for some build and some sequence of host events (R220, R72). -/
def State.Reachable (s : State) : Prop :=
  ∃ (c : Config) (events : List BusEvent) (k : Nat),
    run k { State.resetWith c with pending := events } = .next s

end Sys2Proof.Machine
end

