-- ==== Sys2Proof/Certificates/Slice0/Obligations.lean ====
section
/-! DEFINITION. The statements for the provers, from the numbered rules of spec/. The namespace Sys2Proof.Spec holds readings of
the spec's pseudocode and tables that the statements compare the model with; none of them is used by the model.
In every statement the lists `pending` and `responses`, and that a CMD write is answered `writeOk` also when its command fails, are
the model's form of the bus (assumptions 1, 4 and 18); what the cited rule gives is the rest of the state. -/

namespace Sys2Proof.Spec

open Sys2Proof.Machine

/-! ### Bus events -/

/-- `MemWrite(BASE + off, 4, v)` (R14). -/
def memWrite (c : Config) (off : Nat) (v : Word) : BusEvent := .write .bits32 (c.base + off) v

/-- `MemRead(BASE + off, 4)` (R14). -/
def memRead (c : Config) (off : Nat) : BusEvent := .read .bits32 (c.base + off)

/-- The state once the first pending event is taken and this answer given, the events `rest` still to come. -/
def served (s : State) (rest : List BusEvent) (r : BusResponse) : State :=
  { s with pending := rest, responses := r :: s.responses }

/-- The first pending event is a host write of `v` to CMD at offset 0x004, with `rest` to come (R44, R61). -/
def WritesCmd (s : State) (v : Word) (rest : List BusEvent) : Prop := s.pending = memWrite s.cfg 0x004 v :: rest

/-! ### The command word -/

/-- `case op of` in `decode` of R94, for OP and ARG as numbers. -/
def opR94 (op arg : Nat) : Option Instr :=
  match op with
  | 0 => if arg = 0 then some .nop else none
  | 1 => some (.setup arg)
  | 2 => if arg = 0 then some .setctr else none
  | 3 => if arg = 0 then some .genblk else none
  | 4 => some (.process arg)
  | 5 => if arg = 0 then some .clrerr else none
  | _ => none

/-- `decode` of R94, transcribed with the fields as digits of the number. -/
def decodeR94 (v : Word) : Option Instr :=
  if v.toNat / 2 ^ 16 ≠ 0 ∨ v.toNat / 2 ^ 4 % 2 ^ 4 ≠ 0 then none
  else opR94 (v.toNat % 2 ^ 4) (v.toNat / 2 ^ 8 % 2 ^ 8)

/-- The words R95 calls illegal. -/
def IllegalR95 (v : Word) : Prop :=
  v.extractLsb' 16 16 ≠ 0 ∨ v.extractLsb' 4 4 ≠ 0 ∨ 6 ≤ (v.extractLsb' 0 4).toNat ∨
  ((v.extractLsb' 0 4 = 0 ∨ v.extractLsb' 0 4 = 2 ∨ v.extractLsb' 0 4 = 3 ∨ v.extractLsb' 0 4 = 5) ∧
    v.extractLsb' 8 8 ≠ 0)

/-- The argument of the command is legal (R92): KEYLEN 16 or 32, LEN at most 64. -/
def LegalArgument : Instr → Prop
  | .nop => True
  | .setup keyLen => keyLen = 16 ∨ keyLen = 32
  | .setctr => True
  | .genblk => True
  | .process len => len ≤ 64
  | .clrerr => True

/-- The code of R191 that executing the command word leaves in LAST_ERR, in the priority of R201. -/
def codeR201 (ready : Bool) (v : Word) : BitVec 4 :=
  match decodeR94 v with
  | none => 1
  | some .nop => 0
  | some (.setup keyLen) => if keyLen = 16 ∨ keyLen = 32 then 0 else 2
  | some .setctr => if ready then 0 else 3
  | some .genblk => if ready then 0 else 3
  | some (.process len) => if 64 < len then 4 else if ready then 0 else 3
  | some .clrerr => 0

/-! ### The block function, with the working array written in place as the pseudocode does -/

/-- `x[a] <- x[a] + x[b]`. -/
def addInto (x : Words16) (a b : Fin 16) : Words16 := x.set a (x[a] + x[b])

/-- `x[d] <- rotl(x[d] ^ x[a], n)`. -/
def xorRotInto (x : Words16) (d a : Fin 16) (n : Nat) : Words16 := x.set d (rotl (x[d] ^^^ x[a]) n)

/-- `QR(x, a, b, c, d)` of R132, statement by statement. -/
def qrInPlace (x : Words16) (a b c d : Fin 16) : Words16 :=
  let x := addInto x a b
  let x := xorRotInto x d a 16
  let x := addInto x c d
  let x := xorRotInto x b c 12
  let x := addInto x a b
  let x := xorRotInto x d a 8
  let x := addInto x c d
  xorRotInto x b c 7

/-- One pass of the loop of R135: the column round (R133), then the diagonal round (R134). -/
def doubleRoundInPlace (x : Words16) : Words16 :=
  let x := qrInPlace x 0 4 8 12
  let x := qrInPlace x 1 5 9 13
  let x := qrInPlace x 2 6 10 14
  let x := qrInPlace x 3 7 11 15
  let x := qrInPlace x 0 5 10 15
  let x := qrInPlace x 1 6 11 12
  let x := qrInPlace x 2 7 8 13
  qrInPlace x 3 4 9 14

/-- The eight indices of two quarter-rounds are distinct. -/
def Disjoint8 (a b c d a' b' c' d' : Fin 16) : Prop := [a, b, c, d, a', b', c', d'].Nodup

/-! ### The counter and the stream -/

/-- The context after `k` blocks: the 64-bit counter, or with CARRY_MODE 128 the counter and nonce words as one 128-bit number,
is larger by `k` modulo its width (R138, R139). -/
def contextAfter (mode : CarryMode) (s : Words16) (k : Nat) : Words16 :=
  match mode with
  | .c64 =>
    let n := s[13].toNat * 2 ^ 32 + s[12].toNat + k
    (s.set 12 (BitVec.ofNat 32 n)).set 13 (BitVec.ofNat 32 (n / 2 ^ 32))
  | .c128 =>
    let n := s[15].toNat * 2 ^ 96 + s[14].toNat * 2 ^ 64 + s[13].toNat * 2 ^ 32 + s[12].toNat + k
    (((s.set 12 (BitVec.ofNat 32 n)).set 13 (BitVec.ofNat 32 (n / 2 ^ 32))).set 14 (BitVec.ofNat 32 (n / 2 ^ 64))).set 15
      (BitVec.ofNat 32 (n / 2 ^ 96))

/-- `n` GENBLK commands in a row. -/
def genblks : Nat → State → Option State
  | 0, s => some s
  | n + 1, s =>
    match exec .genblk s with
    | .next t => genblks n t
    | .fault _ => none
    | .refused _ => none

/-- One chunk of a message: a byte count and the contents of DIN when PROCESS is written. -/
abbrev Chunk := Nat × Words16

/-- The first `n` bytes of a window. -/
def firstBytes (n : Nat) (w : Words16) : List Byte := (List.range n).map (byteAt w)

/-- The bytes of a chunked message. -/
def message (cs : List Chunk) : List Byte := cs.flatMap fun c => firstBytes c.1 c.2

/-- PROCESS commands for the chunks in order, the host writing DIN before each (R223 step 5): the output bytes read from DOUT
after each command, and the final state. -/
def feed : List Chunk → State → Option (List Byte × State)
  | [], s => some ([], s)
  | c :: cs, s =>
    match exec (.process c.1) { s with din := c.2 } with
    | .next t => (feed cs t).map fun p => (firstBytes c.1 t.dout ++ p.1, p.2)
    | .fault _ => none
    | .refused _ => none

/-! ### Registers -/

/-- What a read of the register returns (R65): 0 for a WO register, the value of its rule for an RO register, its contents for
an RW register. -/
def readValue (r : Reg) (s : State) : Word :=
  match r with
  | .id => 0x43433230
  | .cmd => 0
  | .status => statusWord s
  | .config => configWord s.cfg
  | .key _ => 0
  | .nonce i => s.nonceIn[i]
  | .ctrin i => s.ctrIn[i]
  | .state i => s.s[12 + i.val]
  | .din i => s.din[i]
  | .dout i => s.dout[i]

/-- A read-write register (R40). -/
def IsRW (r : Reg) : Prop := (∃ i, r = .nonce i) ∨ (∃ i, r = .ctrin i) ∨ ∃ i, r = .din i

/-- A read-only register (R40). -/
def IsRO (r : Reg) : Prop :=
  r = .id ∨ r = .status ∨ r = .config ∨ (∃ i, r = .state i) ∨ ∃ i, r = .dout i

/-- An offset R62 reserves. -/
def Reserved (off : Nat) : Prop := (0x010 ≤ off ∧ off ≤ 0x01F) ∨ (0x060 ≤ off ∧ off ≤ 0x07F)

/-- The engine's own state of the two machines is the same: all that R52 lists, and the build. -/
def SameEngine (s t : State) : Prop :=
  s.cfg = t.cfg ∧ s.s = t.s ∧ s.ks = t.ks ∧ s.avail = t.avail ∧ s.ready = t.ready ∧ s.lastErr = t.lastErr ∧
  s.errSticky = t.errSticky ∧ s.key = t.key ∧ s.nonceIn = t.nonceIn ∧ s.ctrIn = t.ctrIn ∧ s.din = t.din ∧ s.dout = t.dout

/-- Two states that differ at most in what has no read path: KEY0 to KEY7, s[0] to s[11] and the keystream buffer (R205). -/
def SamePublic (s t : State) : Prop :=
  s.cfg = t.cfg ∧ (∀ i : Fin 16, 12 ≤ i.val → s.s[i] = t.s[i]) ∧ s.avail = t.avail ∧ s.ready = t.ready ∧
  s.lastErr = t.lastErr ∧ s.errSticky = t.errSticky ∧ s.nonceIn = t.nonceIn ∧ s.ctrIn = t.ctrIn ∧ s.din = t.din ∧
  s.dout = t.dout ∧ s.pending = t.pending ∧ s.responses = t.responses

/-- The same machine built with another CMD_LATENCY. -/
def withLatency (n : Nat) (s : State) : State := { s with cfg := { s.cfg with cmdLatency := n } }

end Sys2Proof.Spec

open Sys2Proof Sys2Proof.Machine Sys2Proof.Spec

/-! ### Decoding and encoding -/

/-- R94: the decoder gives every one of the 2^32 words what the pseudocode gives it, and a write to CMD raises ILLEGAL_COMMAND
or executes the command accordingly. -/
def Obligations.DecoderFollowsPseudocode : Prop :=
  ∀ v : Word, (∀ i, decode v = .ok i ↔ decodeR94 v = some i) ∧ ((∃ e, decode v = .error e) ↔ decodeR94 v = none) ∧
    ∀ (s : State) (rest : List BusEvent), WritesCmd s v rest →
      (decodeR94 v = none → step s = .next { served s rest .writeOk with lastErr := 1, errSticky := true }) ∧
      ∀ i, decodeR94 v = some i → step s = exec i (served s rest .writeOk)

/-- R93, last sentence: the words that decode to a command with a legal argument. -/
def Obligations.LegalCommandWords : Prop :=
  ∀ v : Word, (∃ i, decode v = .ok i ∧ LegalArgument i) ↔
    v = 0x00000000 ∨ v = 0x00001001 ∨ v = 0x00002001 ∨ v = 0x00000002 ∨ v = 0x00000003 ∨
    (∃ n : Nat, n ≤ 64 ∧ v = BitVec.ofNat 32 (0x00000004 + 0x100 * n)) ∨ v = 0x00000005

/-- R95, R194: the illegal words, and what writing one to CMD does, whatever READY is. -/
def Obligations.IllegalWordsRaiseIllegalCommand : Prop :=
  ∀ v : Word,
    (IllegalR95 v → ∃ e, decode v = .error e) ∧ (¬ IllegalR95 v → ∃ i, decode v = .ok i) ∧
    ∀ (s : State) (rest : List BusEvent), WritesCmd s v rest → IllegalR95 v →
      step s = .next { served s rest .writeOk with lastErr := 1, errSticky := true }

/-- No bit of a well-formed command is lost by the encoding (R91, R93, R94). -/
def Obligations.DecodeOfEncode : Prop := ∀ i : Instr, i.wellFormed = true → decode (encode i) = .ok i

/-- Each command has one word (R93, R94). -/
def Obligations.EncodeOfDecode : Prop := ∀ (v : Word) (i : Instr), decode v = .ok i → encode i = v ∧ i.wellFormed = true

/-- The words of R100, with their bits as R91 lays them out. -/
def Obligations.SampleWordsDecode : Prop :=
  decode 0x00002001 = .ok (.setup 32) ∧ decode 0x00001001 = .ok (.setup 16) ∧ decode 0x00001801 = .ok (.setup 24) ∧
  decode 0x00004004 = .ok (.process 64) ∧ decode 0x00000004 = .ok (.process 0) ∧ decode 0x00004104 = .ok (.process 65) ∧
  decode 0x00000103 = .error .argNotZero ∧ decode 0x00000006 = .error .reservedOp ∧
  decode 0x00010003 = .error .rsv1NotZero

/-! ### Reset -/

/-- R52: the reset values, of every build; and while the context is not READY no command but SETUP changes it (NOP and CLRERR write
only the error fields, R180, R181). -/
def Obligations.ResetValues : Prop :=
  ∀ c : Config, ∃ s : State, s = State.resetWith c ∧ s.cfg = c ∧
    (∀ i : Fin 16, s.s[i] = 0 ∧ s.ks[i] = 0 ∧ s.din[i] = 0 ∧ s.dout[i] = 0) ∧ (∀ i : Fin 8, s.key[i] = 0) ∧
    (∀ i : Fin 2, s.nonceIn[i] = 0 ∧ s.ctrIn[i] = 0) ∧
    s.avail = 0 ∧ s.ready = false ∧ s.lastErr = 0 ∧ s.errSticky = false ∧
    readReg .id s = 0x43433230 ∧ readReg .config s = configWord c ∧ readReg .status s = 0 ∧
    (∀ i : Fin 4, readReg (.state i) s = 0) ∧
    ∀ (i : Instr) (u t : State), u.ready = false → (∀ n, i ≠ .setup n) → exec i u = .next t →
      t.s = u.s ∧ t.ks = u.ks ∧ t.avail = u.avail ∧ t.ready = false

/-- R220: a reset gives every piece of engine state its reset value, and STATUS is then 0. The second clause, a reset right after a
command, is the model's reading of R221 (assumption 8: a command is one step), and the step with no event pending that changes
nothing is the model's choice (assumption 3). -/
def Obligations.ResetRestoresResetValues : Prop :=
  (∀ (s : State) (rest : List BusEvent), s.pending = .reset :: rest →
    ∃ t, step s = .next t ∧ SameEngine t (State.resetWith s.cfg)) ∧
  (∀ (s t : State) (v : Word) (rest : List BusEvent), WritesCmd s v (.reset :: rest) → step s = .next t →
    ∃ u, step t = .next u ∧ SameEngine u (State.resetWith s.cfg)) ∧
  (∀ c : Config, statusWord (State.resetWith c) = 0 ∧ (State.resetWith c).ready = false ∧
    step (State.resetWith c) = .next (State.resetWith c))

/-! ### NOP and CLRERR -/

/-- R180. -/
def Obligations.NopWritesLastErrOnly : Prop :=
  (∀ v : Word, decode v = .ok .nop ↔ v = 0x00000000) ∧
  (∀ s : State, exec .nop s = .next { s with lastErr := 0 }) ∧
  ∀ s t u : State, exec (.setup 24) s = .next t → exec .nop t = .next u →
    statusWord t = 0x00000022 ∧ statusWord u = 0x00000002

/-- R181. -/
def Obligations.ClrerrClearsErrorState : Prop :=
  (∀ v : Word, decode v = .ok .clrerr ↔ v = 0x00000005) ∧
  (∀ s : State, exec .clrerr s = .next { s with errSticky := false, lastErr := 0 }) ∧
  (∀ (i : Instr) (s t : State), exec i s = .next t → s.errSticky = true → t.errSticky = false → i = .clrerr) ∧
  ∀ s t u : State, exec (.setup 24) s = .next t → exec .clrerr t = .next u →
    statusWord t = 0x00000022 ∧ statusWord u = 0x00000000

/-! ### SETUP -/

/-- R112: the context of a 32-byte key; nothing outside the context, LAST_ERR and READY is written. -/
def Obligations.Setup32LoadsContext : Prop :=
  ∀ s : State, ∃ t : State, exec (.setup 32) s = .next t ∧
    t.s[0] = 0x61707865 ∧ t.s[1] = 0x3320646E ∧ t.s[2] = 0x79622D32 ∧ t.s[3] = 0x6B206574 ∧
    (∀ i : Fin 8, t.s[4 + i.val] = s.key[i]) ∧
    t = { s with s := t.s, ks := t.ks, avail := 0, ready := true, lastErr := 0 }

/-- R113: the context of a 16-byte key; KEY4 to KEY7 are not read and keep their values. -/
def Obligations.Setup16LoadsContext : Prop :=
  ∀ s : State, ∃ t : State, exec (.setup 16) s = .next t ∧
    t.s[0] = 0x61707865 ∧ t.s[1] = 0x3120646E ∧ t.s[2] = 0x79622D36 ∧ t.s[3] = 0x6B206574 ∧
    (∀ i : Fin 4, t.s[4 + i.val] = s.key[i.val] ∧ t.s[8 + i.val] = s.key[i.val]) ∧
    t = { s with s := t.s, ks := t.ks, avail := 0, ready := true, lastErr := 0 } ∧
    ∀ k : Vector Word 8, (∀ i : Fin 4, k[i.val] = s.key[i.val]) →
      exec (.setup 16) { s with key := k } = .next { t with key := k }

/-- R114: what a successful SETUP does for both lengths, and a later write to KEY or NONCE changes nothing else. -/
def Obligations.SetupCommonPart : Prop :=
  (∀ (s : State) (n : Nat), n = 16 ∨ n = 32 → ∃ t : State, exec (.setup n) s = .next t ∧
    t.s[12] = 0 ∧ t.s[13] = 0 ∧ t.s[14] = s.nonceIn[0] ∧ t.s[15] = s.nonceIn[1] ∧
    t.avail = 0 ∧ (∀ i : Fin 16, t.ks[i] = 0) ∧ t.ready = true ∧ t.lastErr = 0 ∧ t.errSticky = s.errSticky ∧
    t.din = s.din ∧ t.dout = s.dout ∧ t.ctrIn = s.ctrIn ∧ t.key = s.key ∧ t.nonceIn = s.nonceIn) ∧
  ∀ (s : State) (v : Word) (r : Reg) (rest : List BusEvent), (∃ i, r = .key i) ∨ (∃ i, r = .nonce i) →
    s.pending = memWrite s.cfg r.offset v :: rest →
    ∃ t : State, step s = .next t ∧ SameEngine { t with key := s.key, nonceIn := s.nonceIn } s

/-- R111, R195: every other key length, with all it changes. -/
def Obligations.SetupRejectsOtherLengths : Prop :=
  ∀ (s : State) (n : Nat), n ≠ 16 → n ≠ 32 →
    exec (.setup n) s = .next { s with lastErr := 2, errSticky := true, ready := false, avail := 0 }

/-- R115: the new context depends on KEY, NONCE and KEYLEN alone; a failed SETUP leaves the context not READY; KEY4 to KEY7 do
not affect a 16-byte setup; zero key and nonce are legal; only SETUP makes READY = 1. -/
def Obligations.SetupCornerCases : Prop :=
  (∀ (s s' t t' : State) (n : Nat), n = 16 ∨ n = 32 →
    (∀ i : Fin 8, n = 32 ∨ i.val < 4 → s.key[i] = s'.key[i]) → s.nonceIn = s'.nonceIn →
    exec (.setup n) s = .next t → exec (.setup n) s' = .next t' →
    t.s = t'.s ∧ t.ks = t'.ks ∧ t.avail = t'.avail ∧ t.ready = t'.ready) ∧
  (∀ (s t : State) (n : Nat), n ≠ 16 → n ≠ 32 → exec (.setup n) s = .next t → t.ready = false ∧ t.s = s.s) ∧
  (∀ (s : State) (n : Nat), n = 16 ∨ n = 32 →
    ∃ t, exec (.setup n) { s with key := #v[0, 0, 0, 0, 0, 0, 0, 0], nonceIn := #v[0, 0] } = .next t ∧
      t.ready = true ∧ t.lastErr = 0) ∧
  ∀ (i : Instr) (s t : State), exec i s = .next t → s.ready = false → t.ready = true → ∃ n, i = .setup n

/-! ### SETCTR -/

/-- R118, R119. -/
def Obligations.SetctrLoadsCounter : Prop :=
  (∀ v : Word, decode v = .ok .setctr ↔ v = 0x00000002) ∧
  (∀ s : State, s.ready = true → ∃ t : State, exec .setctr s = .next t ∧
    t.s[12] = s.ctrIn[0] ∧ t.s[13] = s.ctrIn[1] ∧
    (∀ i : Fin 16, i.val ≠ 12 → i.val ≠ 13 → t.s[i] = s.s[i]) ∧ (∀ i : Fin 16, t.ks[i] = 0) ∧
    t = { s with s := t.s, ks := t.ks, avail := 0, lastErr := 0 }) ∧
  ∀ s : State, s.ready = false → exec .setctr s = .next { s with lastErr := 3, errSticky := true }

/-- R121: setting the counter to n and generating one block gives the block that n + 1 generations from counter 0 end with. -/
def Obligations.SetctrReproducesBlock : Prop :=
  ∀ (s : State) (n : Nat), s.ready = true → s.s[12] = 0 → s.s[13] = 0 →
    n = s.ctrIn[1].toNat * 2 ^ 32 + s.ctrIn[0].toNat →
    ∃ a b t : State, exec .setctr s = .next a ∧ exec .genblk a = .next b ∧ genblks (n + 1) s = some t ∧ b.dout = t.dout

/-- R196: SETCTR, GENBLK and PROCESS with LEN at most 64, 0 included, on a context that is not READY. -/
def Obligations.NotReadyCommandsFail : Prop :=
  ∀ (s : State) (i : Instr), s.ready = false → (i = .setctr ∨ i = .genblk ∨ ∃ n, n ≤ 64 ∧ i = .process n) →
    exec i s = .next { s with lastErr := 3, errSticky := true }

/-! ### The block function -/

/-- R131 (the spec's own inference from R130): the laws of the rotation and of addition. -/
def Obligations.WordLaws : Prop :=
  (∀ (v : Word) (n : Nat) (i : Fin 32), 0 < n → n < 32 → (rotl v n).getLsbD i.val = v.getLsbD ((i.val + 32 - n) % 32)) ∧
  (∀ (v : Word) (a b : Nat), 0 < a → a < 32 → 0 < b → b < 32 → (a + b) % 32 ≠ 0 →
    rotl (rotl v a) b = rotl v ((a + b) % 32)) ∧
  (∀ (v : Word) (a b : Nat), 0 < a → a < 32 → a + b = 32 → rotl (rotl v a) b = v) ∧
  (∀ n : Nat, 0 < n → n < 32 → rotl 0 n = 0 ∧ rotl 0xFFFFFFFF n = 0xFFFFFFFF) ∧
  ∀ a b : Word, (a + b).toNat = (a.toNat + b.toNat) % 2 ^ 32

/-- R132: the quarter-round writes the working array as the pseudocode does, and gives the worked example. -/
def Obligations.QuarterRoundInPlace : Prop :=
  (∀ (x : Words16) (a b c d : Fin 16), [a, b, c, d].Nodup → qr x a b c d = qrInPlace x a b c d) ∧
  quarterRound 0x11111111 0x01020304 0x9B8D6F43 0x01234567 = ⟨0xEA2A92F4, 0xCB1CF8CE, 0x4581472E, 0x5881C4BB⟩

/-- R134, last sentence (the spec's own inference): quarter-rounds on disjoint words may change places. -/
def Obligations.DisjointQuarterRoundsCommute : Prop :=
  ∀ (x : Words16) (a b c d a' b' c' d' : Fin 16), Disjoint8 a b c d a' b' c' d' →
    qr (qr x a b c d) a' b' c' d' = qr (qr x a' b' c' d') a b c d

/-- R135: Block(s) is ten passes of the pseudocode's loop on a copy of s, then the feed-forward. -/
def Obligations.BlockFollowsPseudocode : Prop :=
  ∀ (s : Words16) (i : Fin 16), (block s)[i] = (doubleRoundInPlace^[10] s)[i] + s[i]

/-- No two states give the same working array after the rounds (R132 to R134): no word of the state is lost before the
feed-forward. -/
def Obligations.DoubleRoundsInjective : Prop :=
  ∀ (n : Nat) (x y : Words16), doubleRounds n x = doubleRounds n y → x = y

/-- R136: the block's bytes in DOUT after GENBLK and in the buffer after a PROCESS that generates. -/
def Obligations.BlockIsSerialisedLittleEndian : Prop :=
  (∀ (s : State) (i j : Nat) (_ : i < 16), j < 4 → s.ready = true →
    ∃ t : State, exec .genblk s = .next t ∧ byteAt t.dout (4 * i + j) = (block s.s)[i].extractLsb' (8 * j) 8) ∧
  (∀ (s : State) (n i j : Nat) (_ : i < 16), j < 4 → s.ready = true → s.avail < n → n ≤ 64 →
    ∃ t : State, exec (.process n) s = .next t ∧ byteAt t.ks (4 * i + j) = (block s.s)[i].extractLsb' (8 * j) 8) ∧
  ∀ s t u : State, (∀ i : Fin 8, s.key[i] = 0) → (∀ i : Fin 2, s.nonceIn[i] = 0) →
    exec (.setup 32) s = .next t → exec .genblk t = .next u →
    u.dout[0] = 0xADE0B876 ∧ byteAt u.dout 0 = 0x76 ∧ byteAt u.dout 1 = 0xB8 ∧ byteAt u.dout 2 = 0xE0 ∧
    byteAt u.dout 3 = 0xAD

/-- R145: GENBLK's whole effect on a READY context, and its error. -/
def Obligations.GenblkDeliversBlock : Prop :=
  (∀ v : Word, decode v = .ok .genblk ↔ v = 0x00000003) ∧
  (∀ s : State, s.ready = true → ∃ t : State, exec .genblk s = .next t ∧
    (∀ i : Fin 16, t.dout[i] = (block s.s)[i]) ∧ t.s = contextAfter s.cfg.carryMode s.s 1 ∧
    t = { s with s := t.s, dout := t.dout, lastErr := 0 }) ∧
  ∀ s : State, s.ready = false → exec .genblk s = .next { s with lastErr := 3, errSticky := true }

/-- R138: with CARRY_MODE 64 the commands that generate a block add one to the 64-bit counter, leave the nonce words and all
others alone, and a wrap sets no flag. -/
def Obligations.Counter64AdvancesByOne : Prop :=
  ∀ (s : State) (i : Instr), s.cfg.carryMode = .c64 → s.ready = true →
    (i = .genblk ∨ ∃ n, s.avail < n ∧ n ≤ 64 ∧ i = .process n) →
    ∃ t : State, exec i s = .next t ∧ (t.s[13] ++ t.s[12] : BitVec 64) = (s.s[13] ++ s.s[12] : BitVec 64) + 1 ∧
      (t.s[12] = 0 ↔ s.s[12] = 0xFFFFFFFF) ∧
      (∀ k : Fin 16, k.val ≠ 12 → k.val ≠ 13 → t.s[k] = s.s[k]) ∧ t.lastErr = 0 ∧ t.errSticky = s.errSticky ∧
      t.ready = true

/-- R139: with CARRY_MODE 128 they add one to the 128-bit number in words 12 to 15, and the carry out of word 15 is dropped. -/
def Obligations.Counter128AdvancesByOne : Prop :=
  ∀ (s : State) (i : Instr), s.cfg.carryMode = .c128 → s.ready = true →
    (i = .genblk ∨ ∃ n, s.avail < n ∧ n ≤ 64 ∧ i = .process n) →
    ∃ t : State, exec i s = .next t ∧
      t.s[15].toNat * 2 ^ 96 + t.s[14].toNat * 2 ^ 64 + t.s[13].toNat * 2 ^ 32 + t.s[12].toNat =
        (s.s[15].toNat * 2 ^ 96 + s.s[14].toNat * 2 ^ 64 + s.s[13].toNat * 2 ^ 32 + s.s[12].toNat + 1) % 2 ^ 128 ∧
      ∀ k : Fin 16, k.val < 12 → t.s[k] = s.s[k]

/-! ### PROCESS -/

/-- R163 to R167: PROCESS with 1 to 64 bytes on a READY context: every byte of DOUT, AVAIL, the buffer, the counter, and nothing
else written. -/
def Obligations.ProcessStreamsBytes : Prop :=
  ∀ (s : State) (n : Nat), s.ready = true → 1 ≤ n → n ≤ 64 → ∃ t : State, exec (.process n) s = .next t ∧
    (∀ j : Nat, j < n → j < s.avail → byteAt t.dout j = byteAt s.din j ^^^ byteAt s.ks (64 - s.avail + j)) ∧
    (∀ j : Nat, j < n → s.avail ≤ j → byteAt t.dout j = byteAt s.din j ^^^ byteAt (block s.s) (j - s.avail)) ∧
    (∀ j : Nat, n ≤ j → j < 64 → byteAt t.dout j = 0) ∧
    (n ≤ s.avail → t = { s with avail := s.avail - n, dout := t.dout, lastErr := 0 }) ∧
    (s.avail < n → t = { s with
      s := contextAfter s.cfg.carryMode s.s 1, ks := block s.s, avail := 64 - (n - s.avail), dout := t.dout,
      lastErr := 0 })

/-- R162, R171: the errors of PROCESS in their order, and the empty input. -/
def Obligations.ProcessErrorsAndEmptyInput : Prop :=
  (∀ (v : Word) (n : Nat), decode v = .ok (.process n) ↔ n < 256 ∧ v = BitVec.ofNat 32 (0x00000004 + 0x100 * n)) ∧
  (∀ (s : State) (n : Nat), 64 < n → exec (.process n) s = .next { s with lastErr := 4, errSticky := true }) ∧
  (∀ (s : State) (n : Nat), n ≤ 64 → s.ready = false →
    exec (.process n) s = .next { s with lastErr := 3, errSticky := true }) ∧
  (∀ s : State, s.ready = true → exec (.process 0) s = .next { s with lastErr := 0 }) ∧
  ∀ (s : State) (n : Nat), n ≤ 64 → s.ready = true → ∃ t : State, exec (.process n) s = .next t ∧ t.lastErr = 0

/-- R168 (the spec's inference, premise completed as 90_conflicts.md C7): PROCESS undoes PROCESS. -/
def Obligations.ProcessIsInvolution : Prop :=
  ∀ (n : Nat) (s₁ s₂ t₁ : State), s₁.ready = true → s₂.ready = true → 1 ≤ n → n ≤ 64 →
    s₁.s = s₂.s → s₁.ks = s₂.ks → s₁.avail = s₂.avail → exec (.process n) s₁ = .next t₁ →
    firstBytes n s₂.din = firstBytes n t₁.dout →
    ∃ t₂ : State, exec (.process n) s₂ = .next t₂ ∧ firstBytes n t₂.dout = firstBytes n s₁.din

/-- R169 (the spec's inference): the streaming position law, for any number of PROCESS commands from AVAIL = 0. -/
def Obligations.StreamPositionLaw : Prop :=
  ∀ (s : State) (cs : List Chunk), s.ready = true → s.avail = 0 → (∀ c ∈ cs, c.1 ≤ 64) →
    ∃ (out : List Byte) (t : State), feed cs s = some (out, t) ∧ out.length = (message cs).length ∧
      (∀ P : Nat, P < (message cs).length → out.getD P 0 =
        (message cs).getD P 0 ^^^ byteAt (block (contextAfter s.cfg.carryMode s.s (P / 64))) (P % 64)) ∧
      t.avail = (64 - (message cs).length % 64) % 64 ∧
      t.s = contextAfter s.cfg.carryMode s.s (((message cs).length + 63) / 64)

/-- R169, last part: any two ways of splitting a message into chunks give the same output and the same s, ks and AVAIL,
from any AVAIL the field can hold (R28). -/
def Obligations.ChunkingIsInvisible : Prop :=
  ∀ (s : State) (cs cs' : List Chunk), s.ready = true → s.avail ≤ 64 → (∀ c ∈ cs, c.1 ≤ 64) → (∀ c ∈ cs', c.1 ≤ 64) →
    message cs = message cs' →
    ∃ (out : List Byte) (t t' : State), feed cs s = some (out, t) ∧ feed cs' s = some (out, t') ∧
      t.s = t'.s ∧ t.ks = t'.ks ∧ t.avail = t'.avail

/-- R170: exactly 64 bytes, then one more. -/
def Obligations.ExhaustionBoundary : Prop :=
  ∀ (s : State) (d : Words16), s.ready = true → s.avail = 0 →
    ∃ t u : State, exec (.process 64) s = .next t ∧ exec (.process 1) { t with din := d } = .next u ∧
      t.avail = 0 ∧ u.avail = 63 ∧ u.ks = block t.s ∧
      t.s = contextAfter s.cfg.carryMode s.s 1 ∧ u.s = contextAfter s.cfg.carryMode s.s 2

/-- R228 (the spec's inference): a GENBLK between PROCESS commands leaves the old tail to be used first; its own block never
enters the stream. -/
def Obligations.GenblkInsideStream : Prop :=
  ∀ (s : State) (n : Nat), s.ready = true → 0 < s.avail → s.avail < n → n ≤ 64 →
    ∃ t u : State, exec .genblk s = .next t ∧ exec (.process n) t = .next u ∧
      t.avail = s.avail ∧ t.ks = s.ks ∧ t.s = contextAfter s.cfg.carryMode s.s 1 ∧
      (∀ j : Nat, j < s.avail → byteAt u.dout j = byteAt s.din j ^^^ byteAt s.ks (64 - s.avail + j)) ∧
      (∀ j : Nat, s.avail ≤ j → j < n → byteAt u.dout j = byteAt s.din j ^^^ byteAt (block t.s) (j - s.avail)) ∧
      u.s = contextAfter s.cfg.carryMode s.s 2

/-- R229 (the spec's inference): resuming inside a block by SETCTR and a PROCESS whose output is ignored. -/
def Obligations.SeekToByteOffset : Prop :=
  ∀ (s : State) (k n : Nat) (d : Words16), s.ready = true → k < 64 → 1 ≤ n → k + n ≤ 64 →
    ∃ a b u : State, exec .setctr s = .next a ∧ exec (.process k) a = .next b ∧
      exec (.process n) { b with din := d } = .next u ∧ a.s[12] = s.ctrIn[0] ∧ a.s[13] = s.ctrIn[1] ∧
      ∀ j : Nat, j < n → byteAt u.dout j = byteAt d j ^^^ byteAt (block a.s) (k + j)

/-- R49, R172: DIN bytes behind LEN are never read, and DIN is not written. -/
def Obligations.UnreadDinBytesAreIgnored : Prop :=
  ∀ (s t : State) (n : Nat) (d : Words16), n ≤ 64 → firstBytes n d = firstBytes n s.din →
    exec (.process n) s = .next t → t.din = s.din ∧ exec (.process n) { s with din := d } = .next { t with din := d }

/-! ### Errors and status -/

/-- R191, R201: the code every command word leaves, in the order of priority. -/
def Obligations.EveryCommandReportsItsCode : Prop :=
  ∀ (s : State) (v : Word) (rest : List BusEvent), WritesCmd s v rest →
    ∃ t : State, step s = .next t ∧ t.lastErr = codeR201 s.ready v

/-- R192, R193: the whole effect of an error, and that the kept context is then unusable. -/
def Obligations.ErrorsChangeOnlyErrorState : Prop :=
  (∀ (s t : State) (v : Word) (rest : List BusEvent), WritesCmd s v rest → step s = .next t → t.lastErr ≠ 0 →
    (t.lastErr ≠ 2 → t = { served s rest .writeOk with lastErr := t.lastErr, errSticky := true }) ∧
    (t.lastErr = 2 →
      t = { served s rest .writeOk with lastErr := 2, errSticky := true, ready := false, avail := 0 })) ∧
  ∀ (s t : State) (i : Instr), s.ready = false → (i = .setctr ∨ i = .genblk ∨ ∃ n, i = .process n) →
    exec i s = .next t → t.lastErr ≠ 0 ∧ t.s = s.s ∧ t.ks = s.ks ∧ t.dout = s.dout

/-- R33: LAST_ERR and ERR_STICKY, over every step of the machine. -/
def Obligations.StickyRecordsFailures : Prop :=
  (∀ c : Config, (State.resetWith c).lastErr = 0 ∧ (State.resetWith c).errSticky = false) ∧
  (∀ (s t : State) (v : Word) (rest : List BusEvent), WritesCmd s v rest → step s = .next t →
    t.lastErr = codeR201 s.ready v ∧ (codeR201 s.ready v ≠ 0 → t.errSticky = true)) ∧
  (∀ s t : State, step s = .next t → s.errSticky = true → t.errSticky = false →
    ∃ rest, s.pending = .reset :: rest ∨ WritesCmd s 0x00000005 rest) ∧
  ∀ s : State, (readReg .status s).extractLsb' 4 4 = s.lastErr ∧ (readReg .status s).getLsbD 1 = s.errSticky

/-- R198 for every command but CLRERR, whose own rule is R181. -/
def Obligations.SuccessLeavesStickyUnchanged : Prop :=
  ∀ (i : Instr) (s t : State), exec i s = .next t → t.lastErr = 0 → i ≠ .clrerr → t.errSticky = s.errSticky

/-- R32: the writers of READY, over every step of the machine, and where the host reads it. -/
def Obligations.ReadyWriters : Prop :=
  (∀ c : Config, (State.resetWith c).ready = false) ∧
  (∀ (s t : State) (n : Nat), exec (.setup n) s = .next t → (t.ready = true ↔ n = 16 ∨ n = 32)) ∧
  (∀ (s t : State) (i : Instr), (∀ n, i ≠ .setup n) → exec i s = .next t → t.ready = s.ready) ∧
  (∀ s t : State, step s = .next t → s.ready ≠ t.ready →
    ∃ rest, s.pending = .reset :: rest ∨ ∃ n, n < 256 ∧ WritesCmd s (encode (.setup n)) rest) ∧
  (∀ (s t : State) (i : Instr), s.ready = false → (i = .setctr ∨ i = .genblk ∨ ∃ n, i = .process n) →
    exec i s = .next t → t.lastErr ≠ 0) ∧
  ∀ s : State, (readReg .status s).getLsbD 0 = s.ready

/-- R43: every bit of STATUS, its reset value, and that it cannot be written. -/
def Obligations.StatusLayout : Prop :=
  (∀ s : State, (readReg .status s).getLsbD 0 = s.ready ∧ (readReg .status s).getLsbD 1 = s.errSticky ∧
    (readReg .status s).extractLsb' 2 2 = 0 ∧ (readReg .status s).extractLsb' 4 4 = s.lastErr ∧
    ((readReg .status s).extractLsb' 8 7).toNat = s.avail % 128 ∧ (readReg .status s).extractLsb' 15 17 = 0) ∧
  (∀ c : Config, readReg .status (State.resetWith c) = 0) ∧
  ∀ (s : State) (v : Word) (rest : List BusEvent), s.pending = memWrite s.cfg 0x008 v :: rest →
    step s = .next (served s rest .writeError)

/-- R41, R42: the two constant registers. -/
def Obligations.IdAndConfigAreConstant : Prop :=
  (∀ s : State, readReg .id s = 0x43433230) ∧
  (∀ (s : State) (v : Word) (rest : List BusEvent), s.pending = memWrite s.cfg 0x000 v :: rest →
    step s = .next (served s rest .writeError)) ∧
  (∀ s : State, (readReg .config s).getLsbD 0 = decide (s.cfg.carryMode = .c128) ∧
    (readReg .config s).extractLsb' 1 7 = 0 ∧ (readReg .config s).extractLsb' 8 8 = 0x40 ∧
    (readReg .config s).extractLsb' 16 8 = 0x14 ∧ (readReg .config s).extractLsb' 24 8 = 0) ∧
  ∀ s : State, s.cfg.carryMode = .c64 → readReg .config s = 0x00144000

/-! ### The bus -/

/-- R44: a write to CMD runs the decoded command at once, on the state in which the access is taken and answered; a read of CMD
returns 0. -/
def Obligations.CmdWriteRunsDecodedCommand : Prop :=
  (∀ (s : State) (v : Word) (i : Instr) (rest : List BusEvent), WritesCmd s v rest → decode v = .ok i →
    step s = exec i (served s rest .writeOk)) ∧
  (∀ (s : State) (i : Instr) (rest : List BusEvent), i.wellFormed = true → WritesCmd s (encode i) rest →
    step s = exec i (served s rest .writeOk)) ∧
  ∀ (s : State) (rest : List BusEvent), s.pending = memRead s.cfg 0x004 :: rest →
    step s = .next (served s rest (.readOk 0))

/-- R65: what a read returns and that it changes no engine state; what was written to an RW register is read back. -/
def Obligations.ReadsReturnRegisters : Prop :=
  (∀ (s : State) (r : Reg) (rest : List BusEvent), s.pending = memRead s.cfg r.offset :: rest →
    step s = .next (served s rest (.readOk (readValue r s)))) ∧
  (∀ (s : State) (r : Reg) (v : Word) (rest : List BusEvent), IsRW r →
    s.pending = memWrite s.cfg r.offset v :: memRead s.cfg r.offset :: rest →
    ∃ t u : State, step s = .next t ∧ step t = .next u ∧ u.pending = rest ∧
      u.responses = .readOk v :: .writeOk :: s.responses) ∧
  ∀ (c : Config) (r : Reg), IsRW r → readReg r (State.resetWith c) = 0

/-- R66: what a write stores. -/
def Obligations.WritesStoreWholeRegister : Prop :=
  ∀ (s : State) (v : Word) (rest : List BusEvent),
    (∀ i : Fin 8, s.pending = memWrite s.cfg (0x020 + 4 * i.val) v :: rest →
      step s = .next { served s rest .writeOk with key := s.key.set i v }) ∧
    (∀ i : Fin 2, s.pending = memWrite s.cfg (0x040 + 4 * i.val) v :: rest →
      step s = .next { served s rest .writeOk with nonceIn := s.nonceIn.set i v }) ∧
    (∀ i : Fin 2, s.pending = memWrite s.cfg (0x048 + 4 * i.val) v :: rest →
      step s = .next { served s rest .writeOk with ctrIn := s.ctrIn.set i v }) ∧
    (∀ i : Fin 16, s.pending = memWrite s.cfg (0x080 + 4 * i.val) v :: rest →
      step s = .next { served s rest .writeOk with din := s.din.set i v }) ∧
    (∀ i, WritesCmd s v rest → decode v = .ok i → step s = exec i (served s rest .writeOk)) ∧
    (∀ e, WritesCmd s v rest → decode v = .error e →
      step s = .next { served s rest .writeOk with lastErr := 1, errSticky := true }) ∧
    ∀ r : Reg, IsRO r → s.pending = memWrite s.cfg r.offset v :: rest → step s = .next (served s rest .writeError)

/-- R62, R63, R64, R67: the accesses the bus interface refuses, and that nothing else happens. -/
def Obligations.BusErrorsHaveNoEffect : Prop :=
  ∀ (s : State) (width : AccessWidth) (off : Nat) (v : Word) (rest : List BusEvent), off < 256 →
    width ≠ .bits32 ∨ off % 4 ≠ 0 ∨ Reserved off →
    (s.pending = .read width (s.cfg.base + off) :: rest → step s = .next (served s rest (.readError 0))) ∧
    (s.pending = .write width (s.cfg.base + off) v :: rest → step s = .next (served s rest .writeError))

/-- R61: the offset of every register, for every BASE, and no register anywhere else in the window. -/
def Obligations.RegisterMapOffsets : Prop :=
  ∀ c : Config,
    locate c .bits32 (c.base + 0x000) = .reg .id ∧ locate c .bits32 (c.base + 0x004) = .reg .cmd ∧
    locate c .bits32 (c.base + 0x008) = .reg .status ∧ locate c .bits32 (c.base + 0x00C) = .reg .config ∧
    (∀ i : Fin 8, locate c .bits32 (c.base + (0x020 + 4 * i.val)) = .reg (.key i)) ∧
    (∀ i : Fin 2, locate c .bits32 (c.base + (0x040 + 4 * i.val)) = .reg (.nonce i)) ∧
    (∀ i : Fin 2, locate c .bits32 (c.base + (0x048 + 4 * i.val)) = .reg (.ctrin i)) ∧
    (∀ i : Fin 4, locate c .bits32 (c.base + (0x050 + 4 * i.val)) = .reg (.state i)) ∧
    (∀ i : Fin 16, locate c .bits32 (c.base + (0x080 + 4 * i.val)) = .reg (.din i)) ∧
    (∀ i : Fin 16, locate c .bits32 (c.base + (0x0C0 + 4 * i.val)) = .reg (.dout i)) ∧
    ∀ off : Nat, off < 256 → off % 4 ≠ 0 ∨ Reserved off → locate c .bits32 (c.base + off) = .busError

/-- R205, R45, R25, R27: no read answers with anything that depends on KEY, s[0] to s[11] or the keystream buffer. -/
def Obligations.KeyMaterialHasNoReadPath : Prop :=
  ∀ (s s' t : State) (width : AccessWidth) (addr : Nat) (rest : List BusEvent), SamePublic s s' →
    s.pending = .read width addr :: rest → step s = .next t →
    ∃ t' : State, step s' = .next t' ∧ t'.responses = t.responses ∧ SamePublic t t'

/-- The model's choice (assumption 5): it stops exactly on an access outside BASE to BASE + 0xFF (R60), and never refuses. -/
def Obligations.FaultsExactlyOutsideWindow : Prop :=
  (∀ s : State, step s = .fault .outsideWindow ↔
    ∃ (width : AccessWidth) (addr : Nat) (v : Word) (rest : List BusEvent),
      (s.pending = .read width addr :: rest ∨ s.pending = .write width addr v :: rest) ∧
      (addr < s.cfg.base ∨ s.cfg.base + 0x100 ≤ addr)) ∧
  ∀ (s : State) (r : Refusal), step s ≠ .refused r

/-- R72: one access at a time, in arrival order, each whole: a step takes exactly the first event and answers it at most once
(the lists are the model's, assumptions 1 and 4). -/
def Obligations.AccessesServedInArrivalOrder : Prop :=
  (∀ (s t : State) (e : BusEvent) (rest : List BusEvent), s.pending = e :: rest → step s = .next t →
    t.pending = rest ∧ t.cfg = s.cfg ∧ (e = .reset → t.responses = s.responses) ∧
    (e ≠ .reset → ∃ r, t.responses = r :: s.responses)) ∧
  ∀ (s t : State) (e : BusEvent) (rest rest' : List BusEvent), s.pending = e :: rest → step s = .next t →
    step { s with pending := e :: rest' } = .next { t with pending := rest' }

/-- R12, R233: no rule depends on CMD_LATENCY. -/
def Obligations.LatencyIsReadByNoRule : Prop :=
  ∀ (s : State) (n : Nat),
    (∀ t, step s = .next t → step (withLatency n s) = .next (withLatency n t)) ∧
    (∀ f, step s = .fault f → step (withLatency n s) = .fault f)

/-! ### What commands leave alone -/

/-- R227 with R45, R46, R47, R49: no command writes KEY, NONCE, CTRIN or DIN, the build, or the host's side of the bus. -/
def Obligations.CommandsKeepInputRegisters : Prop :=
  ∀ (i : Instr) (s t : State), exec i s = .next t →
    t.key = s.key ∧ t.nonceIn = s.nonceIn ∧ t.ctrIn = s.ctrIn ∧ t.din = s.din ∧ t.cfg = s.cfg ∧
    t.pending = s.pending ∧ t.responses = s.responses

/-- R25, R24: which command may write which context word. -/
def Obligations.ContextWordWriters : Prop :=
  ∀ (i : Instr) (s t : State), (∀ n, i ≠ .setup n) → exec i s = .next t →
    (∀ k : Fin 16, k.val < 12 → t.s[k] = s.s[k]) ∧
    (s.cfg.carryMode = .c64 ∨ i = .setctr → t.s[14] = s.s[14] ∧ t.s[15] = s.s[15]) ∧
    (t.s ≠ s.s → i = .setctr ∨ i = .genblk ∨ ∃ n, s.avail < n ∧ i = .process n)

/-- R27, R31: which command may write the keystream buffer and AVAIL, and with what. -/
def Obligations.BufferAndAvailWriters : Prop :=
  ∀ (i : Instr) (s t : State), exec i s = .next t →
    (t.ks = s.ks ∨ (t.ks = zeros16 ∧ (i = .setup 16 ∨ i = .setup 32 ∨ i = .setctr)) ∨
      (t.ks = block s.s ∧ ∃ n, i = .process n ∧ s.avail < n ∧ n ≤ 64)) ∧
    (t.avail = s.avail ∨ (t.avail = 0 ∧ (i = .setctr ∨ ∃ n, i = .setup n)) ∨
      ∃ n, i = .process n ∧ ((n ≤ s.avail ∧ t.avail = s.avail - n) ∨ (s.avail < n ∧ t.avail = 64 - (n - s.avail))))

/-- R226 (the spec's inference), R50: only GENBLK and a PROCESS with LEN >= 1 that succeed write DOUT. -/
def Obligations.DoutLifetime : Prop :=
  ∀ (i : Instr) (s t : State), exec i s = .next t → t.dout ≠ s.dout →
    t.lastErr = 0 ∧ s.ready = true ∧ (i = .genblk ∨ ∃ n, 1 ≤ n ∧ n ≤ 64 ∧ i = .process n)

/-! ### Host program lines -/

/-- R99: what the accesses of LDKEY32, LDKEY16, LDNONCE and SEEK leave when they are served. -/
def Obligations.PseudoInstructionsRun : Prop :=
  (∀ (s : State) (k : Vector Word 8), s.pending = HostLine.accesses s.cfg (.ldkey32 k) →
    ∃ t : State, run 8 s = .next t ∧ SameEngine t { s with key := k }) ∧
  (∀ (s : State) (k : Vector Word 4), s.pending = HostLine.accesses s.cfg (.ldkey16 k) →
    ∃ t : State, run 4 s = .next t ∧ (∀ i : Fin 4, t.key[i.val] = k[i]) ∧
      (∀ i : Fin 8, 4 ≤ i.val → t.key[i] = s.key[i]) ∧ SameEngine t { s with key := t.key }) ∧
  (∀ (s : State) (n0 n1 : Word), s.pending = HostLine.accesses s.cfg (.ldnonce n0 n1) →
    ∃ t : State, run 2 s = .next t ∧ SameEngine t { s with nonceIn := #v[n0, n1] }) ∧
  ∀ (s : State) (c : BitVec 64), s.ready = true → s.pending = HostLine.accesses s.cfg (.seek c) →
    ∃ t : State, run 3 s = .next t ∧ counter64 t.s = c ∧ t.avail = 0 ∧ t.lastErr = 0 ∧
      t.pending = []

/-! ### The invariant -/

/-- R54: the invariant holds after reset, in every build and whatever the host will do. -/
def Obligations.InvHoldsAtReset : Prop :=
  ∀ (c : Config) (events : List BusEvent), ({ State.resetWith c with pending := events } : State).Inv

/-- R54: every step keeps the invariant, from every state that has it. -/
def Obligations.StepKeepsInv : Prop := ∀ s t : State, s.Inv → step s = .next t → t.Inv

/-- R30 ("a model … must then prove, not assume, that 64 does not occur"), R28: AVAIL in every state an engine reaches. -/
def Obligations.ReachableAvailBelow64 : Prop :=
  ∀ s : State, s.Reachable → s.avail ≤ 63 ∧ (0 < s.avail → s.ready = true) ∧ (readReg .status s).extractLsb' 15 17 = 0 ∧
    ((readReg .status s).extractLsb' 8 7).toNat = s.avail
end

