-- ==== Sys2Proof/Laws/State.lean ====
section
/-! SUPPORT. One lemma per field for each named update of the state, so that no later proof unfolds a record update. -/

namespace Sys2Proof.Machine

/-! ### `succeed`: success bookkeeping -/

@[simp] theorem succeed_cfg (s : State) : (succeed s).cfg = s.cfg := rfl
@[simp] theorem succeed_s (s : State) : (succeed s).s = s.s := rfl
@[simp] theorem succeed_ks (s : State) : (succeed s).ks = s.ks := rfl
@[simp] theorem succeed_avail (s : State) : (succeed s).avail = s.avail := rfl
@[simp] theorem succeed_ready (s : State) : (succeed s).ready = s.ready := rfl
@[simp] theorem succeed_lastErr (s : State) : (succeed s).lastErr = 0 := rfl
@[simp] theorem succeed_errSticky (s : State) : (succeed s).errSticky = s.errSticky := rfl
@[simp] theorem succeed_key (s : State) : (succeed s).key = s.key := rfl
@[simp] theorem succeed_nonceIn (s : State) : (succeed s).nonceIn = s.nonceIn := rfl
@[simp] theorem succeed_ctrIn (s : State) : (succeed s).ctrIn = s.ctrIn := rfl
@[simp] theorem succeed_din (s : State) : (succeed s).din = s.din := rfl
@[simp] theorem succeed_dout (s : State) : (succeed s).dout = s.dout := rfl
@[simp] theorem succeed_pending (s : State) : (succeed s).pending = s.pending := rfl
@[simp] theorem succeed_responses (s : State) : (succeed s).responses = s.responses := rfl

/-! ### `recordError`: error bookkeeping -/

@[simp] theorem recordError_cfg (code : BitVec 4) (s : State) : (recordError code s).cfg = s.cfg := rfl
@[simp] theorem recordError_s (code : BitVec 4) (s : State) : (recordError code s).s = s.s := rfl
@[simp] theorem recordError_ks (code : BitVec 4) (s : State) : (recordError code s).ks = s.ks := rfl
@[simp] theorem recordError_avail (code : BitVec 4) (s : State) : (recordError code s).avail = s.avail := rfl
@[simp] theorem recordError_ready (code : BitVec 4) (s : State) : (recordError code s).ready = s.ready := rfl
@[simp] theorem recordError_lastErr (code : BitVec 4) (s : State) : (recordError code s).lastErr = code := rfl
@[simp] theorem recordError_errSticky (code : BitVec 4) (s : State) : (recordError code s).errSticky = true := rfl
@[simp] theorem recordError_key (code : BitVec 4) (s : State) : (recordError code s).key = s.key := rfl
@[simp] theorem recordError_nonceIn (code : BitVec 4) (s : State) : (recordError code s).nonceIn = s.nonceIn := rfl
@[simp] theorem recordError_ctrIn (code : BitVec 4) (s : State) : (recordError code s).ctrIn = s.ctrIn := rfl
@[simp] theorem recordError_din (code : BitVec 4) (s : State) : (recordError code s).din = s.din := rfl
@[simp] theorem recordError_dout (code : BitVec 4) (s : State) : (recordError code s).dout = s.dout := rfl
@[simp] theorem recordError_pending (code : BitVec 4) (s : State) : (recordError code s).pending = s.pending := rfl
@[simp] theorem recordError_responses (code : BitVec 4) (s : State) : (recordError code s).responses = s.responses := rfl

/-! ### `raise`: a command error -/

@[simp] theorem raise_cfg (e : CmdError) (s : State) : (raise e s).cfg = s.cfg := by cases e <;> rfl
@[simp] theorem raise_s (e : CmdError) (s : State) : (raise e s).s = s.s := by cases e <;> rfl
@[simp] theorem raise_ks (e : CmdError) (s : State) : (raise e s).ks = s.ks := by cases e <;> rfl
@[simp] theorem raise_avail (e : CmdError) (s : State) : (raise e s).avail = if e = .invalidKeyLength then 0 else s.avail := by cases e <;> rfl
@[simp] theorem raise_ready (e : CmdError) (s : State) : (raise e s).ready = if e = .invalidKeyLength then false else s.ready := by cases e <;> rfl
@[simp] theorem raise_lastErr (e : CmdError) (s : State) : (raise e s).lastErr = e.code := by cases e <;> rfl
@[simp] theorem raise_errSticky (e : CmdError) (s : State) : (raise e s).errSticky = true := by cases e <;> rfl
@[simp] theorem raise_key (e : CmdError) (s : State) : (raise e s).key = s.key := by cases e <;> rfl
@[simp] theorem raise_nonceIn (e : CmdError) (s : State) : (raise e s).nonceIn = s.nonceIn := by cases e <;> rfl
@[simp] theorem raise_ctrIn (e : CmdError) (s : State) : (raise e s).ctrIn = s.ctrIn := by cases e <;> rfl
@[simp] theorem raise_din (e : CmdError) (s : State) : (raise e s).din = s.din := by cases e <;> rfl
@[simp] theorem raise_dout (e : CmdError) (s : State) : (raise e s).dout = s.dout := by cases e <;> rfl
@[simp] theorem raise_pending (e : CmdError) (s : State) : (raise e s).pending = s.pending := by cases e <;> rfl
@[simp] theorem raise_responses (e : CmdError) (s : State) : (raise e s).responses = s.responses := by cases e <;> rfl

/-! ### `clearErrors`: the return from errors -/

@[simp] theorem clearErrors_cfg (s : State) : (clearErrors s).cfg = s.cfg := rfl
@[simp] theorem clearErrors_s (s : State) : (clearErrors s).s = s.s := rfl
@[simp] theorem clearErrors_ks (s : State) : (clearErrors s).ks = s.ks := rfl
@[simp] theorem clearErrors_avail (s : State) : (clearErrors s).avail = s.avail := rfl
@[simp] theorem clearErrors_ready (s : State) : (clearErrors s).ready = s.ready := rfl
@[simp] theorem clearErrors_lastErr (s : State) : (clearErrors s).lastErr = 0 := rfl
@[simp] theorem clearErrors_errSticky (s : State) : (clearErrors s).errSticky = false := rfl
@[simp] theorem clearErrors_key (s : State) : (clearErrors s).key = s.key := rfl
@[simp] theorem clearErrors_nonceIn (s : State) : (clearErrors s).nonceIn = s.nonceIn := rfl
@[simp] theorem clearErrors_ctrIn (s : State) : (clearErrors s).ctrIn = s.ctrIn := rfl
@[simp] theorem clearErrors_din (s : State) : (clearErrors s).din = s.din := rfl
@[simp] theorem clearErrors_dout (s : State) : (clearErrors s).dout = s.dout := rfl
@[simp] theorem clearErrors_pending (s : State) : (clearErrors s).pending = s.pending := rfl
@[simp] theorem clearErrors_responses (s : State) : (clearErrors s).responses = s.responses := rfl

/-! ### `advanceCounter`: the counter advance -/

@[simp] theorem advanceCounter_cfg (s : State) : (advanceCounter s).cfg = s.cfg := rfl
@[simp] theorem advanceCounter_s (s : State) : (advanceCounter s).s = advance s.cfg.carryMode s.s := rfl
@[simp] theorem advanceCounter_ks (s : State) : (advanceCounter s).ks = s.ks := rfl
@[simp] theorem advanceCounter_avail (s : State) : (advanceCounter s).avail = s.avail := rfl
@[simp] theorem advanceCounter_ready (s : State) : (advanceCounter s).ready = s.ready := rfl
@[simp] theorem advanceCounter_lastErr (s : State) : (advanceCounter s).lastErr = s.lastErr := rfl
@[simp] theorem advanceCounter_errSticky (s : State) : (advanceCounter s).errSticky = s.errSticky := rfl
@[simp] theorem advanceCounter_key (s : State) : (advanceCounter s).key = s.key := rfl
@[simp] theorem advanceCounter_nonceIn (s : State) : (advanceCounter s).nonceIn = s.nonceIn := rfl
@[simp] theorem advanceCounter_ctrIn (s : State) : (advanceCounter s).ctrIn = s.ctrIn := rfl
@[simp] theorem advanceCounter_din (s : State) : (advanceCounter s).din = s.din := rfl
@[simp] theorem advanceCounter_dout (s : State) : (advanceCounter s).dout = s.dout := rfl
@[simp] theorem advanceCounter_pending (s : State) : (advanceCounter s).pending = s.pending := rfl
@[simp] theorem advanceCounter_responses (s : State) : (advanceCounter s).responses = s.responses := rfl

/-! ### `generate`: a block into the buffer -/

@[simp] theorem generate_cfg (s : State) : (generate s).cfg = s.cfg := rfl
@[simp] theorem generate_s (s : State) : (generate s).s = advance s.cfg.carryMode s.s := rfl
@[simp] theorem generate_ks (s : State) : (generate s).ks = block s.s := rfl
@[simp] theorem generate_avail (s : State) : (generate s).avail = s.avail := rfl
@[simp] theorem generate_ready (s : State) : (generate s).ready = s.ready := rfl
@[simp] theorem generate_lastErr (s : State) : (generate s).lastErr = s.lastErr := rfl
@[simp] theorem generate_errSticky (s : State) : (generate s).errSticky = s.errSticky := rfl
@[simp] theorem generate_key (s : State) : (generate s).key = s.key := rfl
@[simp] theorem generate_nonceIn (s : State) : (generate s).nonceIn = s.nonceIn := rfl
@[simp] theorem generate_ctrIn (s : State) : (generate s).ctrIn = s.ctrIn := rfl
@[simp] theorem generate_din (s : State) : (generate s).din = s.din := rfl
@[simp] theorem generate_dout (s : State) : (generate s).dout = s.dout := rfl
@[simp] theorem generate_pending (s : State) : (generate s).pending = s.pending := rfl
@[simp] theorem generate_responses (s : State) : (generate s).responses = s.responses := rfl

/-! ### `answer`: a bus answer -/

@[simp] theorem answer_cfg (r : BusResponse) (s : State) : (answer r s).cfg = s.cfg := rfl
@[simp] theorem answer_s (r : BusResponse) (s : State) : (answer r s).s = s.s := rfl
@[simp] theorem answer_ks (r : BusResponse) (s : State) : (answer r s).ks = s.ks := rfl
@[simp] theorem answer_avail (r : BusResponse) (s : State) : (answer r s).avail = s.avail := rfl
@[simp] theorem answer_ready (r : BusResponse) (s : State) : (answer r s).ready = s.ready := rfl
@[simp] theorem answer_lastErr (r : BusResponse) (s : State) : (answer r s).lastErr = s.lastErr := rfl
@[simp] theorem answer_errSticky (r : BusResponse) (s : State) : (answer r s).errSticky = s.errSticky := rfl
@[simp] theorem answer_key (r : BusResponse) (s : State) : (answer r s).key = s.key := rfl
@[simp] theorem answer_nonceIn (r : BusResponse) (s : State) : (answer r s).nonceIn = s.nonceIn := rfl
@[simp] theorem answer_ctrIn (r : BusResponse) (s : State) : (answer r s).ctrIn = s.ctrIn := rfl
@[simp] theorem answer_din (r : BusResponse) (s : State) : (answer r s).din = s.din := rfl
@[simp] theorem answer_dout (r : BusResponse) (s : State) : (answer r s).dout = s.dout := rfl
@[simp] theorem answer_pending (r : BusResponse) (s : State) : (answer r s).pending = s.pending := rfl
@[simp] theorem answer_responses (r : BusResponse) (s : State) : (answer r s).responses = r :: s.responses := rfl

/-! ### `installContext`: a successful SETUP -/

@[simp] theorem installContext_cfg (ctx : Words16) (s : State) : (installContext ctx s).cfg = s.cfg := rfl
@[simp] theorem installContext_s (ctx : Words16) (s : State) : (installContext ctx s).s = ctx := rfl
@[simp] theorem installContext_ks (ctx : Words16) (s : State) : (installContext ctx s).ks = zeros16 := rfl
@[simp] theorem installContext_avail (ctx : Words16) (s : State) : (installContext ctx s).avail = 0 := rfl
@[simp] theorem installContext_ready (ctx : Words16) (s : State) : (installContext ctx s).ready = true := rfl
@[simp] theorem installContext_lastErr (ctx : Words16) (s : State) : (installContext ctx s).lastErr = 0 := rfl
@[simp] theorem installContext_errSticky (ctx : Words16) (s : State) : (installContext ctx s).errSticky = s.errSticky := rfl
@[simp] theorem installContext_key (ctx : Words16) (s : State) : (installContext ctx s).key = s.key := rfl
@[simp] theorem installContext_nonceIn (ctx : Words16) (s : State) : (installContext ctx s).nonceIn = s.nonceIn := rfl
@[simp] theorem installContext_ctrIn (ctx : Words16) (s : State) : (installContext ctx s).ctrIn = s.ctrIn := rfl
@[simp] theorem installContext_din (ctx : Words16) (s : State) : (installContext ctx s).din = s.din := rfl
@[simp] theorem installContext_dout (ctx : Words16) (s : State) : (installContext ctx s).dout = s.dout := rfl
@[simp] theorem installContext_pending (ctx : Words16) (s : State) : (installContext ctx s).pending = s.pending := rfl
@[simp] theorem installContext_responses (ctx : Words16) (s : State) : (installContext ctx s).responses = s.responses := rfl

/-! ### `resetEngine`: a reset -/

@[simp] theorem resetEngine_cfg (s : State) : (resetEngine s).cfg = s.cfg := rfl
@[simp] theorem resetEngine_s (s : State) : (resetEngine s).s = zeros16 := rfl
@[simp] theorem resetEngine_ks (s : State) : (resetEngine s).ks = zeros16 := rfl
@[simp] theorem resetEngine_avail (s : State) : (resetEngine s).avail = 0 := rfl
@[simp] theorem resetEngine_ready (s : State) : (resetEngine s).ready = false := rfl
@[simp] theorem resetEngine_lastErr (s : State) : (resetEngine s).lastErr = 0 := rfl
@[simp] theorem resetEngine_errSticky (s : State) : (resetEngine s).errSticky = false := rfl
@[simp] theorem resetEngine_key (s : State) : (resetEngine s).key = #v[0, 0, 0, 0, 0, 0, 0, 0] := rfl
@[simp] theorem resetEngine_nonceIn (s : State) : (resetEngine s).nonceIn = #v[0, 0] := rfl
@[simp] theorem resetEngine_ctrIn (s : State) : (resetEngine s).ctrIn = #v[0, 0] := rfl
@[simp] theorem resetEngine_din (s : State) : (resetEngine s).din = zeros16 := rfl
@[simp] theorem resetEngine_dout (s : State) : (resetEngine s).dout = zeros16 := rfl
@[simp] theorem resetEngine_pending (s : State) : (resetEngine s).pending = s.pending := rfl
@[simp] theorem resetEngine_responses (s : State) : (resetEngine s).responses = s.responses := rfl

/-! ### `resetWith`: the state after reset -/

@[simp] theorem resetWith_cfg (c : Config) : (State.resetWith c).cfg = c := rfl
@[simp] theorem resetWith_s (c : Config) : (State.resetWith c).s = zeros16 := rfl
@[simp] theorem resetWith_ks (c : Config) : (State.resetWith c).ks = zeros16 := rfl
@[simp] theorem resetWith_avail (c : Config) : (State.resetWith c).avail = 0 := rfl
@[simp] theorem resetWith_ready (c : Config) : (State.resetWith c).ready = false := rfl
@[simp] theorem resetWith_lastErr (c : Config) : (State.resetWith c).lastErr = 0 := rfl
@[simp] theorem resetWith_errSticky (c : Config) : (State.resetWith c).errSticky = false := rfl
@[simp] theorem resetWith_key (c : Config) : (State.resetWith c).key = #v[0, 0, 0, 0, 0, 0, 0, 0] := rfl
@[simp] theorem resetWith_nonceIn (c : Config) : (State.resetWith c).nonceIn = #v[0, 0] := rfl
@[simp] theorem resetWith_ctrIn (c : Config) : (State.resetWith c).ctrIn = #v[0, 0] := rfl
@[simp] theorem resetWith_din (c : Config) : (State.resetWith c).din = zeros16 := rfl
@[simp] theorem resetWith_dout (c : Config) : (State.resetWith c).dout = zeros16 := rfl
@[simp] theorem resetWith_pending (c : Config) : (State.resetWith c).pending = [] := rfl
@[simp] theorem resetWith_responses (c : Config) : (State.resetWith c).responses = [] := rfl

end Sys2Proof.Machine
end

