-- ==== Sys2Proof/Laws/Bus.lean ====
section
/-! SUPPORT. The register map and the step as equations (spec/20_memory.md R61, R65, R66, R72). -/

namespace Sys2Proof.Machine

/-- The register map read at a register's offset gives the register (R61). -/
theorem regAt_offset (r : Reg) : regAt r.offset = some r := by
  cases r with
  | id => rfl
  | cmd => rfl
  | status => rfl
  | config => rfl
  | key i => revert i; decide
  | nonce i => revert i; decide
  | ctrin i => revert i; decide
  | state i => revert i; decide
  | din i => revert i; decide
  | dout i => revert i; decide

/-- Every register lies in the window (R60, R61). -/
theorem offset_lt_window (r : Reg) : r.offset < Config.windowBytes := by
  cases r <;> simp [Reg.offset, Config.windowBytes] <;> omega

/-- An aligned 32-bit access at BASE + off(reg) reaches the register (R61). -/
theorem locate_reg (c : Config) (r : Reg) : locate c .bits32 (c.base + r.offset) = .reg r := by
  have hlt := offset_lt_window r
  have hin : ¬ (c.base + r.offset < c.base ∨ c.base + Config.windowBytes ≤ c.base + r.offset) := by omega
  have hsub : c.base + r.offset - c.base = r.offset := by omega
  simp only [locate, hin, if_false, if_true, hsub, regAt_offset]

/-- The step serves the first pending event (R72). -/
theorem step_cons (s : State) (e : BusEvent) (rest : List BusEvent) (h : s.pending = e :: rest) :
    step s = finish (serve e { s with pending := rest }) := by
  simp only [step, h]

/-- The step with nothing pending (R220). -/
theorem step_nil (s : State) (h : s.pending = []) : step s = .next s := by
  simp only [step, h, idle]

/-- What serving an event can come to: it is served, it carries a command, or it is outside the window; the accesses still to
come are never touched. -/
theorem serve_done_pending (e : BusEvent) (s t : State) (h : serve e s = .done t) : t.pending = s.pending := by
  cases e with
  | reset =>
    simp only [serve, Served.done.injEq] at h
    subst h
    rfl
  | read width addr =>
    simp only [serve] at h
    cases hl : locate s.cfg width addr <;> simp only [hl, serveRead] at h <;> simp_all <;> subst h <;> rfl
  | write width addr v =>
    simp only [serve] at h
    cases hl : locate s.cfg width addr with
    | outside => simp [hl, serveWrite] at h
    | busError => simp only [hl, serveWrite, Served.done.injEq] at h; subst h; rfl
    | reg r => cases r <;> simp [hl, serveWrite, writeReg] at h <;> subst h <;> rfl

end Sys2Proof.Machine
end

