-- ==== Sys2Proof/Laws/Operands.lean ====
section
/-! SUPPORT. Bytes of word arrays, the packing of bytes into words (spec/20_memory.md R68, R69), and the counter words as
numbers (spec/10_state.md R23). -/

namespace Sys2Proof.Machine

/-- A byte inside the array is a byte lane of its word (R14). -/
theorem byteAt_eq_lane {n : Nat} (w : Vector Word n) (j : Nat) (h : j / 4 < n) :
    byteAt w j = w[j / 4].extractLsb' (8 * (j % 4)) 8 := by
  simp [byteAt, h]

/-- Bit i of the word made of four bytes, as the byte lane that holds it (R69). -/
theorem getLsbD_wordOfBytes (b0 b1 b2 b3 : Byte) (i : Nat) :
    (wordOfBytes b0 b1 b2 b3).getLsbD i =
      if i < 8 then b0.getLsbD i else if i < 16 then b1.getLsbD (i - 8)
      else if i < 24 then b2.getLsbD (i - 16) else b3.getLsbD (i - 24) := by
  have h3 : ∀ (x : BitVec 8) (y : BitVec 24), (x ++ y : BitVec 32).getLsbD i =
      if i < 24 then y.getLsbD i else x.getLsbD (i - 24) := fun _ _ => BitVec.getLsbD_append
  have h2 : ∀ (x : BitVec 8) (y : BitVec 16), (x ++ y : BitVec 24).getLsbD i =
      if i < 16 then y.getLsbD i else x.getLsbD (i - 16) := fun _ _ => BitVec.getLsbD_append
  have h1 : ∀ (x : BitVec 8) (y : BitVec 8), (x ++ y : BitVec 16).getLsbD i =
      if i < 8 then y.getLsbD i else x.getLsbD (i - 8) := fun _ _ => BitVec.getLsbD_append
  unfold wordOfBytes
  rw [h3, h2, h1]
  split_ifs <;> first | rfl | omega

/-- Byte k of the word made of four bytes (R69). -/
theorem lane_wordOfBytes (f : Nat → Byte) (k : Nat) (hk : k < 4) :
    (wordOfBytes (f 0) (f 1) (f 2) (f 3)).extractLsb' (8 * k) 8 = f k := by
  ext i hi
  rw [BitVec.getElem_extractLsb', getLsbD_wordOfBytes]
  have hcases : k = 0 ∨ k = 1 ∨ k = 2 ∨ k = 3 := by omega
  rcases hcases with rfl | rfl | rfl | rfl
  all_goals split_ifs <;> first | omega | simp [hi]

/-- Byte j of a packed window is the j-th byte, and 0 behind the last (R68, R167). -/
theorem byteAt_packBytes (bs : List Byte) (j : Nat) (hj : j < 64) : byteAt (packBytes bs) j = bs.getD j 0 := by
  have hw : j / 4 < 16 := by omega
  have hlane := lane_wordOfBytes (fun k => bs.getD (4 * (j / 4) + k) 0) (j % 4) (by omega)
  rw [byteAt_eq_lane _ _ hw]
  simp only [packBytes, Vector.getElem_ofFn]
  simpa [Nat.div_add_mod] using hlane

/-- The 64-bit counter as a number (R23). -/
theorem counter64_toNat (s : Words16) : (counter64 s).toNat = s[13].toNat * 2 ^ 32 + s[12].toNat := by
  have h : (counter64 s).toNat = s[13].toNat <<< 32 ||| s[12].toNat := BitVec.toNat_append _ _
  rw [h, ← Nat.shiftLeft_add_eq_or_of_lt s[12].isLt, Nat.shiftLeft_eq]

/-- The counter and nonce words as one number (R139). -/
theorem counter128_toNat (s : Words16) :
    (counter128 s).toNat =
      s[15].toNat * 2 ^ 96 + s[14].toNat * 2 ^ 64 + s[13].toNat * 2 ^ 32 + s[12].toNat := by
  have happ : ∀ x y : Word, (x ++ y : BitVec 64).toNat = x.toNat * 2 ^ 32 + y.toNat := by
    intro x y
    have h : (x ++ y : BitVec 64).toNat = x.toNat <<< 32 ||| y.toNat := BitVec.toNat_append _ _
    rw [h, ← Nat.shiftLeft_add_eq_or_of_lt y.isLt, Nat.shiftLeft_eq]
  have h : (counter128 s).toNat = (s[15] ++ s[14] : BitVec 64).toNat <<< 64 ||| (s[13] ++ s[12] : BitVec 64).toNat :=
    BitVec.toNat_append _ _
  rw [h, ← Nat.shiftLeft_add_eq_or_of_lt (BitVec.isLt _), Nat.shiftLeft_eq, happ, happ]
  omega

end Sys2Proof.Machine
end

