-- ==== Sys2Proof/Laws/Ops.lean ====
section
/-! SUPPORT. What the counter advance can do (spec/41_block.md R138, R139): the words it leaves alone, what it writes to the
others, and the number it adds. -/

namespace Sys2Proof.Machine

/-- The advance writes no constant and no key word, in either mode (R25). -/
theorem advance_below12 (mode : CarryMode) (s : Words16) (i : Nat) (hi : i < 12) :
    (advance mode s)[i] = s[i] := by
  have h12 : 12 ≠ i := by omega
  have h13 : 13 ≠ i := by omega
  have h14 : 14 ≠ i := by omega
  have h15 : 15 ≠ i := by omega
  cases mode <;> simp only [advance] <;> split_ifs <;> simp [h12, h13, h14, h15]

/-- Word 12 counts (R138). -/
theorem advance_word12 (mode : CarryMode) (s : Words16) : (advance mode s)[12] = s[12] + 1 := by
  cases mode <;> simp only [advance] <;> split_ifs <;> simp

/-- Word 13 counts the wraps of word 12 (R138). -/
theorem advance_word13 (mode : CarryMode) (s : Words16) :
    (advance mode s)[13] = if s[12] + 1 = 0 then s[13] + 1 else s[13] := by
  cases mode <;> simp [advance] <;> split_ifs <;> simp

/-- With CARRY_MODE 64 the advance leaves the nonce words alone (R138). -/
theorem advance_c64_nonce (s : Words16) :
    (advance .c64 s)[14] = s[14] ∧ (advance .c64 s)[15] = s[15] := by
  simp only [advance]
  split_ifs <;> simp

/-- With CARRY_MODE 128 word 14 counts the wraps of words 12 and 13 together (R139). -/
theorem advance_c128_word14 (s : Words16) :
    (advance .c128 s)[14] = if s[12] + 1 = 0 ∧ s[13] + 1 = 0 then s[14] + 1 else s[14] := by
  simp [advance]
  split_ifs <;> simp_all

/-- With CARRY_MODE 128 word 15 counts the wraps of words 12, 13 and 14 together (R139). -/
theorem advance_c128_word15 (s : Words16) :
    (advance .c128 s)[15] = if s[12] + 1 = 0 ∧ s[13] + 1 = 0 ∧ s[14] + 1 = 0 then s[15] + 1 else s[15] := by
  simp [advance]
  split_ifs <;> simp_all

/-- A word wraps to zero exactly from its largest value. -/
theorem word_succ_eq_zero (x : Word) : x + 1 = 0 ↔ x.toNat = 2 ^ 32 - 1 := by
  have hlt := x.isLt
  have hsum : (x + 1).toNat = (x.toNat + 1) % 2 ^ 32 := BitVec.toNat_add _ _
  rw [← BitVec.toNat_inj, hsum]
  simp
  omega

/-- In both modes the 64-bit counter advances by one modulo 2^64 (R138, R139). -/
theorem counter64_advance (mode : CarryMode) (s : Words16) :
    counter64 (advance mode s) = counter64 s + 1 := by
  apply BitVec.eq_of_toNat_eq
  have h13 := s[13].isLt
  have h12 := s[12].isLt
  rw [BitVec.toNat_add, counter64_toNat, counter64_toNat, advance_word12, advance_word13]
  simp only [word_succ_eq_zero]
  split_ifs <;> rw [BitVec.toNat_add] <;> try rw [BitVec.toNat_add]
  all_goals simp
  all_goals omega

/-- With CARRY_MODE 128 the counter and nonce words advance as one number modulo 2^128 (R139). -/
theorem counter128_advance (s : Words16) : counter128 (advance .c128 s) = counter128 s + 1 := by
  apply BitVec.eq_of_toNat_eq
  have h15 := s[15].isLt
  have h14 := s[14].isLt
  have h13 := s[13].isLt
  have h12 := s[12].isLt
  rw [BitVec.toNat_add, counter128_toNat, counter128_toNat, advance_word12, advance_word13, advance_c128_word14,
    advance_c128_word15]
  simp only [word_succ_eq_zero]
  split_ifs <;> simp [BitVec.toNat_add] <;> omega

end Sys2Proof.Machine
end

