-- ==== Sys2Proof/Laws/Stream.lean ====
section
/-! SUPPORT. Everything the streaming path of PROCESS can do (spec/42_stream.md R163 to R167): its output bytes and the state
it leaves. -/

namespace Sys2Proof.Machine

/-- The keystream byte XORed with input byte j of a PROCESS that starts in this state: the buffer's tail first, then the block
of the current counter (R163, R164). -/
def keystreamByte (s : State) (j : Nat) : Byte :=
  if j < s.avail then byteAt s.ks (64 - s.avail + j) else byteAt (block s.s) (j - s.avail)

/-- The output bytes of PROCESS n (R163, R164). -/
theorem stream_bytes (n : Nat) (s : State) :
    (stream n s).1 = (List.range n).map fun j => byteAt s.din j ^^^ keystreamByte s j := by
  unfold stream
  by_cases hmore : s.avail < n
  · have hmin : min n s.avail = s.avail := by omega
    simp only [hmin, hmore, if_true, consumeTail, consumeFresh]
    apply List.ext_getElem
    · simp only [List.length_append, List.length_map, List.length_range]
      omega
    · intro j h1 h2
      by_cases hj : j < s.avail
      · simp [hj, keystreamByte]
      · have hsum : s.avail + (j - s.avail) = j := by omega
        simp [List.getElem_append, hj, keystreamByte, hsum]
  · have hmin : min n s.avail = n := by omega
    simp only [hmin, Nat.lt_irrefl, if_false, consumeTail]
    apply List.map_congr_left
    intro j hj
    have hlt : j < s.avail := by
      have := List.mem_range.mp hj
      omega
    simp [keystreamByte, hlt]

/-- As many output bytes as input bytes (R167). -/
theorem stream_length (n : Nat) (s : State) : (stream n s).1.length = n := by
  simp [stream_bytes]

/-- The state after steps 2 and 3 of PROCESS n: one block is generated exactly when n exceeds AVAIL (R164 to R166). -/
theorem stream_state (n : Nat) (s : State) :
    (stream n s).2 =
      if s.avail < n then { generate s with avail := 64 - (n - s.avail) } else { s with avail := s.avail - n } := by
  unfold stream
  by_cases hmore : s.avail < n
  · have hmin : min n s.avail = s.avail := by omega
    simp only [hmin, hmore, if_true, consumeFresh, consumeTail]
    rfl
  · have hmin : min n s.avail = n := by omega
    simp only [hmin, hmore, if_false, Nat.lt_irrefl, consumeTail]

/-- PROCESS on a ready context with 1 to 64 bytes (R161). -/
theorem execProcess_ready (n : Nat) (s : State) (hn : n ≤ 64) (hpos : n ≠ 0) (hr : s.ready = true) :
    execProcess n s = .next (succeed { (stream n s).2 with dout := packBytes (stream n s).1 }) := by
  have hmax : ¬ Config.maxLen < n := by
    unfold Config.maxLen
    omega
  simp [execProcess, hmax, hr, hpos]

/-- Output byte j of PROCESS n, and zero behind the output (R167). -/
theorem byteAt_stream (n : Nat) (s : State) (j : Nat) (hj : j < 64) :
    byteAt (packBytes (stream n s).1) j = if j < n then byteAt s.din j ^^^ keystreamByte s j else 0 := by
  rw [byteAt_packBytes _ _ hj, stream_bytes]
  split_ifs with h <;> simp [List.getD, h]

end Sys2Proof.Machine
end

