-- ==== Sys2Proof/Laws/Commands.lean ====
section
/-! SUPPORT. Each command's meaning as one equation per case of its rule, in terms of the shared operations; later proofs cite
these instead of unfolding the meanings. -/

namespace Sys2Proof.Machine

/-- SETUP with a 32-byte key (R112). -/
theorem execSetup_32 (s : State) :
    execSetup 32 s = .next (installContext (contextWords constants32 (keyLow s) (keyHigh s) s.nonceIn) s) := by
  simp only [execSetup, if_true]

/-- SETUP with a 16-byte key (R113). -/
theorem execSetup_16 (s : State) :
    execSetup 16 s = .next (installContext (contextWords constants16 (keyLow s) (keyLow s) s.nonceIn) s) := by
  have hne : (16 : Nat) ≠ 32 := by decide
  simp only [execSetup, hne, if_false, if_true]

/-- SETUP with any other key length (R111). -/
theorem execSetup_other (n : Nat) (s : State) (h16 : n ≠ 16) (h32 : n ≠ 32) :
    execSetup n s = .next (raise .invalidKeyLength s) := by
  simp only [execSetup, h16, h32, if_false]

/-- SETCTR on a READY context (R118). -/
theorem execSetctr_ready (s : State) (hr : s.ready = true) :
    execSetctr s =
      .next (succeed { s with s := (s.s.set 12 s.ctrIn[0]).set 13 s.ctrIn[1], ks := zeros16, avail := 0 }) := by
  rw [execSetctr, if_pos hr]

/-- SETCTR on a context that is not READY (R119). -/
theorem execSetctr_notReady (s : State) (hr : s.ready = false) : execSetctr s = .next (raise .notInitialized s) := by
  rw [execSetctr, if_neg (by simp [hr])]

/-- GENBLK on a READY context (R145). -/
theorem execGenblk_ready (s : State) (hr : s.ready = true) :
    execGenblk s = .next (succeed (advanceCounter { s with dout := block s.s })) := by
  rw [execGenblk, if_pos hr]

/-- GENBLK on a context that is not READY (R145). -/
theorem execGenblk_notReady (s : State) (hr : s.ready = false) : execGenblk s = .next (raise .notInitialized s) := by
  rw [execGenblk, if_neg (by simp [hr])]

/-- PROCESS with more than 64 bytes (R171). -/
theorem execProcess_tooLong (n : Nat) (s : State) (hn : 64 < n) :
    execProcess n s = .next (raise .lengthTooLarge s) := by
  rw [execProcess, if_pos (show Config.maxLen < n from hn)]

/-- PROCESS on a context that is not READY (R171). -/
theorem execProcess_notReady (n : Nat) (s : State) (hn : n ≤ 64) (hr : s.ready = false) :
    execProcess n s = .next (raise .notInitialized s) := by
  rw [execProcess, if_neg (show ¬ Config.maxLen < n from Nat.not_lt.mpr hn), if_neg (by simp [hr])]

/-- PROCESS 0 on a READY context (R162). -/
theorem execProcess_empty (s : State) (hr : s.ready = true) : execProcess 0 s = .next (succeed s) := by
  rw [execProcess, if_neg (by decide), if_pos hr, if_pos rfl]

end Sys2Proof.Machine
end

