-- ==== Sys2Proof/Laws/PerInstr.lean ====
section
/-! SUPPORT. Statements made once per command: the family EncodedFields (spec/30_encoding.md R91, R93). -/

namespace Sys2Proof.Laws.EncodedFields

/-- The word of a well-formed command has its OP in bits [3:0], its argument in ARG and zero in the reserved fields. -/
def Statement (i : Instr) : Prop :=
  i.wellFormed = true →
    opField (encode i) = i.op ∧ rsv0Field (encode i) = 0 ∧ (argField (encode i)).toNat = i.arg ∧ rsv1Field (encode i) = 0

/-- The fields of a word put together from its OP and its ARG. -/
theorem fields_of_word (op : BitVec 4) (arg : BitVec 8) :
    opField (0#16 ++ (arg ++ (0#4 ++ op) : BitVec 16) : BitVec 32) = op ∧
    rsv0Field (0#16 ++ (arg ++ (0#4 ++ op) : BitVec 16) : BitVec 32) = 0 ∧
    argField (0#16 ++ (arg ++ (0#4 ++ op) : BitVec 16) : BitVec 32) = arg ∧
    rsv1Field (0#16 ++ (arg ++ (0#4 ++ op) : BitVec 16) : BitVec 32) = 0 := by
  have happ : ∀ (x : BitVec 16) (y : BitVec 16) (i : Nat), (x ++ y : BitVec 32).getLsbD i =
      if i < 16 then y.getLsbD i else x.getLsbD (i - 16) := fun _ _ _ => BitVec.getLsbD_append
  have happ' : ∀ (x : BitVec 8) (y : BitVec 8) (i : Nat), (x ++ y : BitVec 16).getLsbD i =
      if i < 8 then y.getLsbD i else x.getLsbD (i - 8) := fun _ _ _ => BitVec.getLsbD_append
  have happ'' : ∀ (x : BitVec 4) (y : BitVec 4) (i : Nat), (x ++ y : BitVec 8).getLsbD i =
      if i < 4 then y.getLsbD i else x.getLsbD (i - 4) := fun _ _ _ => BitVec.getLsbD_append
  refine ⟨?_, ?_, ?_, ?_⟩
  all_goals
    ext k hk
    simp only [opField, rsv0Field, argField, rsv1Field, BitVec.getElem_extractLsb', happ, happ', happ'']
    split_ifs <;> first | omega | simp [hk]

/-- The fields of any well-formed command's word. -/
theorem fields_of_encode (i : Instr) : Statement i := by
  intro hwf
  have hlt : i.arg < 2 ^ 8 := by simpa [Instr.wellFormed] using hwf
  obtain ⟨hop, hr0, harg, hr1⟩ := fields_of_word i.op (BitVec.ofNat 8 i.arg)
  refine ⟨hop, hr0, ?_, hr1⟩
  have hval : argField (encode i) = BitVec.ofNat 8 i.arg := harg
  rw [hval, BitVec.toNat_ofNat, Nat.mod_eq_of_lt hlt]

theorem nop : Statement .nop := fields_of_encode _

theorem setup (keyLen : Nat) : Statement (.setup keyLen) := fields_of_encode _

theorem setctr : Statement .setctr := fields_of_encode _

theorem genblk : Statement .genblk := fields_of_encode _

theorem process (len : Nat) : Statement (.process len) := fields_of_encode _

theorem clrerr : Statement .clrerr := fields_of_encode _

end Sys2Proof.Laws.EncodedFields
end

