-- ==== Sys2Proof/Laws/Run.lean ====
section
/-! SUPPORT. Runs of several steps, and that they are the runs of the host's interface. -/

namespace Sys2Proof.Machine

/-- A run whose first step answers a next state goes on from it. -/
theorem run_step (k : Nat) (s t : State) (h : step s = .next t) : run (k + 1) s = run k t := by
  simp only [run, h]

/-- What holds in `s` and is kept by every step holds after every run. -/
theorem run_keeps (P : State → Prop) (hstep : ∀ s t, P s → step s = .next t → P t) (k : Nat) :
    ∀ s t, P s → run k s = .next t → P t := by
  induction k with
  | zero =>
    intro s t hs hr
    simp only [run, Host.Outcome.next.injEq] at hr
    exact hr ▸ hs
  | succ k ih =>
    intro s t hs hr
    simp only [run] at hr
    split at hr
    · exact ih _ t (hstep s _ hs ‹_›) hr
    · simp at hr
    · simp at hr

/-- A run is the run of the machine behind the host's interface. -/
theorem run_eq_core_run (k : Nat) : ∀ s : Sys2Proof.core.State, Sys2Proof.core.run k s = run k s := by
  induction k with
  | zero => intro s; rfl
  | succ k ih =>
    intro s
    rw [Host.Core.run]
    cases h : Sys2Proof.core.step s with
    | next t => exact (ih t).trans (run_step k s t h).symm
    | fault f => simp only [run, show step s = .fault f from h]; rfl
    | refused r => simp only [run, show step s = .refused r from h]; rfl

end Sys2Proof.Machine
end

