-- ==== Sys2Proof/Tests/Slice0.lean ====
section
/-! SUPPORT. The model's own tests (expected values from spec/95_test_vectors.md and the worked examples of the rules), the
smoke test of WellFormed, the words of the encoding written out bit by bit, and a witness for the hypotheses of every
statement. -/

namespace Sys2Proof.Tests

open Sys2Proof.Machine Sys2Proof.Spec

/-! ### Helpers -/

/-- The state a command leaves. -/
def after (i : Instr) (s : State) : State :=
  match exec i s with
  | .next t => t
  | .fault _ => s
  | .refused _ => s

/-- The state a step leaves. -/
def stepped (s : State) : State :=
  match step s with
  | .next t => t
  | .fault _ => s
  | .refused _ => s

/-- The READY context of V-SET-1: zero key and nonce, counter 0. -/
def ready0 : State :=
  { State.reset with
    s := #v[0x61707865, 0x3320646E, 0x79622D32, 0x6B206574, 0, 0, 0, 0, 0, 0, 0, 0, 0, 0, 0, 0], ready := true }

/-- V-BLK-1. -/
def blk1 : Words16 :=
  #v[0xade0b876, 0x903df1a0, 0xe56a5d40, 0x28bd8653, 0xb819d2bd, 0x1aed8da0, 0xccef36a8, 0xc70d778b,
     0x7c5941da, 0x8d485751, 0x3fe02477, 0x374ad8b8, 0xf4b8436a, 0x1ca11815, 0x69b687c3, 0x8665eeb2]

/-- V-BLK-4. -/
def blk4 : Words16 :=
  #v[0x434131a6, 0xd1c4e075, 0xadce041d, 0x04871fe9, 0xc221f13a, 0x76d82a64, 0x7b7cc85a, 0x29491467,
     0x8730f1b6, 0xb6dcc813, 0x58824689, 0x90e53938, 0x85cd6ebd, 0xab0dd272, 0x31a37272, 0xf91d79c3]

/-- The READY context after one block of V-SET-1 with `n` bytes of it still buffered. -/
def buffered0 (n : Nat) : State := { ready0 with s := ready0.s.set 12 1, ks := blk1, avail := n }

/-- A host that is about to write the word to CMD and then make the accesses `rest`. -/
def writing (s : State) (v : Word) (rest : List BusEvent) : State := { s with pending := memWrite s.cfg 0x004 v :: rest }

/-- The engine after the failed SETUP 24 of V-SET-3. -/
def failed24 : State := { State.reset with lastErr := 2, errSticky := true }

/-- The same machine with CARRY_MODE 128. -/
def wide (s : State) : State := { s with cfg := { s.cfg with carryMode := .c128 } }

/-! ### WellFormed -/

theorem test_wf_setup_256_refused : (Instr.setup 256).wellFormed = false := by decide
theorem test_wf_process_256_refused : (Instr.process 256).wellFormed = false := by decide
theorem test_wf_setup_255_accepted : (Instr.setup 255).wellFormed = true := by decide
theorem test_wf_nop_accepted : Instr.nop.wellFormed = true := by decide

/-! ### Decoding: RSV1, ARG, RSV0, OP from the top bit down (R91, R93, R100) -/

theorem test_decode_nop : decode 0b0000000000000000_00000000_0000_0000#32 = .ok .nop := by rfl
theorem test_decode_setup32 : decode 0b0000000000000000_00100000_0000_0001#32 = .ok (.setup 32) := by rfl
theorem test_decode_setup24 : decode 0b0000000000000000_00011000_0000_0001#32 = .ok (.setup 24) := by rfl
theorem test_decode_setctr : decode 0b0000000000000000_00000000_0000_0010#32 = .ok .setctr := by rfl
theorem test_decode_genblk : decode 0b0000000000000000_00000000_0000_0011#32 = .ok .genblk := by rfl
theorem test_decode_process64 : decode 0b0000000000000000_01000000_0000_0100#32 = .ok (.process 64) := by rfl
theorem test_decode_process255 : decode 0b0000000000000000_11111111_0000_0100#32 = .ok (.process 255) := by rfl
theorem test_decode_clrerr : decode 0b0000000000000000_00000000_0000_0101#32 = .ok .clrerr := by rfl
theorem test_decode_nop_arg : decode 0x00000100#32 = .error .argNotZero := by rfl
theorem test_decode_rsv0 : decode 0x00001011#32 = .error .rsv0NotZero := by rfl
theorem test_decode_rsv1 : decode 0x00010004#32 = .error .rsv1NotZero := by rfl
theorem test_decode_op6 : decode 0x00000006#32 = .error .reservedOp := by rfl
theorem test_decode_op15 : decode 0x0000000F#32 = .error .reservedOp := by rfl
theorem test_decode_ones : decode 0xFFFFFFFF#32 = .error .rsv1NotZero := by rfl
theorem test_encode_setup16 : encode (.setup 16) = 0x00001001#32 := by decide
theorem test_encode_process65 : encode (.process 65) = 0x00004104#32 := by decide
theorem test_table_word_process : decodeTableWord 32 0x00002804 = some (.process 40) := by decide

/-! ### Shared operations -/

/-- V-QR-1. -/
theorem test_quarterRound_1 : quarterRound 0x11111111 0x01020304 0x9b8d6f43 0x01234567 =
    ⟨0xea2a92f4, 0xcb1cf8ce, 0x4581472e, 0x5881c4bb⟩ := by decide
/-- V-QR-3. -/
theorem test_quarterRound_3 : quarterRound 0xffffffff 0xffffffff 0xffffffff 0xffffffff =
    ⟨0xf0000ffd, 0x88790878, 0x0110fdef, 0x010ffdf0⟩ := by decide
/-- V-DR-1. -/
theorem test_doubleRound_1 : doubleRounds 1 ready0.s =
    #v[0xe45fd249, 0x1bb820a6, 0xe31a88ea, 0xe667a9fe, 0x2a3bf673, 0x86bf4098, 0x460b500a, 0xfa169886,
       0x538dca0e, 0x0c439641, 0x00fa16bc, 0x8a08812a, 0x6bbf8b09, 0xc33013d6, 0xbb9f9849, 0x87c62165] := by decide +kernel
/-- V-CTR-3. -/
theorem test_advance_64 :
    advance .c64 #v[0, 0, 0, 0, 0, 0, 0, 0, 0, 0, 0, 0, 0xffffffff, 0xffffffff, 0xffffffff, 0xffffffff] =
      #v[0, 0, 0, 0, 0, 0, 0, 0, 0, 0, 0, 0, 0, 0, 0xffffffff, 0xffffffff] := by decide
/-- V-CTR-5. -/
theorem test_advance_128 :
    advance .c128 #v[0, 0, 0, 0, 0, 0, 0, 0, 0, 0, 0, 0, 0xffffffff, 0xffffffff, 0xffffffff, 0] =
      #v[0, 0, 0, 0, 0, 0, 0, 0, 0, 0, 0, 0, 0, 0, 0, 1] := by decide

/-! ### One command each -/

/-- V-CTL-1. -/
theorem test_nop : statusWord (after .nop failed24) = 0x00000002 := by decide
/-- V-CTL-1. -/
theorem test_clrerr : statusWord (after .clrerr failed24) = 0x00000000 := by decide
/-- V-CTL-2. -/
theorem test_clrerr_ready :
    statusWord (after .clrerr { ready0 with lastErr := 4, errSticky := true }) = 0x00000001 := by decide
/-- V-SET-2, R116: the 16-byte key is replicated; KEY4 to KEY7 are not used. -/
theorem test_setup16 : (after (.setup 16) { State.reset with
    key := #v[0x03020100, 0x07060504, 0x0b0a0908, 0x0f0e0d0c, 0xa, 0xb, 0xc, 0xd],
    nonceIn := #v[0x03020100, 0x07060504] }).s =
      #v[0x61707865, 0x3120646e, 0x79622d36, 0x6b206574, 0x03020100, 0x07060504, 0x0b0a0908, 0x0f0e0d0c,
         0x03020100, 0x07060504, 0x0b0a0908, 0x0f0e0d0c, 0, 0, 0x03020100, 0x07060504] := by decide
/-- V-SET-4: READY and AVAIL 48, then SETUP 0. -/
theorem test_setup0 : statusWord (buffered0 48) = 0x00003001 ∧
    statusWord (after (.setup 0) (buffered0 48)) = 0x00000022 := by decide
/-- V-SCT-4. -/
theorem test_setctr_max :
    (after .setctr { buffered0 24 with ctrIn := #v[0xffffffff, 0xfffffffe] }).s[12] = 0xffffffff ∧
    (after .setctr { buffered0 24 with ctrIn := #v[0xffffffff, 0xfffffffe] }).s[13] = 0xfffffffe ∧
    statusWord (after .setctr (buffered0 24)) = 0x00000001 := by decide
/-- V-SCT-3. -/
theorem test_setctr_notReady : statusWord (after .setctr State.reset) = 0x00000032 := by decide
/-- V-BLK-1. -/
theorem test_genblk : (after .genblk ready0).dout = blk1 ∧ (after .genblk ready0).s[12] = 1 := by decide +kernel
/-- V-BLK-4, by a step that runs GENBLK on the state words of R116. -/
theorem test_genblk_16 : (after .genblk { ready0 with
    s := #v[0x61707865, 0x3120646e, 0x79622d36, 0x6b206574, 0x03020100, 0x07060504, 0x0b0a0908, 0x0f0e0d0c,
            0x03020100, 0x07060504, 0x0b0a0908, 0x0f0e0d0c, 0, 0, 0x03020100, 0x07060504] }).dout = blk4 := by decide +kernel
/-- V-STR-1, the second PROCESS 40: 24 bytes of the tail of block 0, then 16 bytes of block 1. -/
theorem test_process_tail_and_fresh :
    (after (.process 40) (buffered0 24)).dout =
      #v[0x3fe02477, 0x374ad8b8, 0xf4b8436a, 0x1ca11815, 0x69b687c3, 0x8665eeb2, 0xbee7079f, 0x7a385155,
         0x7c97ba98, 0x0d082d73, 0, 0, 0, 0, 0, 0] ∧
    statusWord (after (.process 40) (buffered0 24)) = 0x00003001 ∧
    (after (.process 40) (buffered0 24)).s[12] = 2 := by decide +kernel
/-- V-STR-3, the second command, PROCESS 2 with AVAIL 1. -/
theorem test_process_last_byte :
    (after (.process 2) (buffered0 1)).dout[0] = 0x00009f86 ∧
    (after (.process 2) (buffered0 1)).avail = 63 := by decide +kernel

/-! ### The bus (95_test_vectors.md, Bus accesses) -/

theorem test_read_id :
    (stepped { ready0 with pending := [memRead ready0.cfg 0x000] }).responses = [.readOk 0x43433230] := by decide
theorem test_read_config_128 :
    (stepped (wide { ready0 with pending := [memRead ready0.cfg 0x00C] })).responses = [.readOk 0x00144001] := by decide
theorem test_read_key : (stepped { ready0 with
    key := ready0.key.set 0 0x12345678, pending := [memRead ready0.cfg 0x020] }).responses = [.readOk 0] := by decide
theorem test_write_nonce : (stepped { ready0 with
    pending := [memWrite ready0.cfg 0x040 0x12345678] }).nonceIn = #v[0x12345678, 0] := by decide
theorem test_write_status :
    stepped { ready0 with pending := [memWrite ready0.cfg 0x008 0] } = { ready0 with responses := [.writeError] } := by decide
theorem test_read_reserved :
    (stepped { ready0 with pending := [memRead ready0.cfg 0x010] }).responses = [.readError 0] := by decide
theorem test_read_unaligned :
    (stepped { ready0 with pending := [memRead ready0.cfg 0x082] }).responses = [.readError 0] := by decide
theorem test_write_8bit : stepped { ready0 with pending := [.write .bits8 (ready0.cfg.base + 0x080) 0xff] } =
    { ready0 with responses := [.writeError] } := by decide
theorem test_write_dout :
    stepped { ready0 with pending := [memWrite ready0.cfg 0x0C0 1] } = { ready0 with responses := [.writeError] } := by decide
theorem test_outside_target : locate ready0.cfg .bits32 (ready0.cfg.base + 0x100) = .outside := by decide
theorem test_outside_window : step { ready0 with pending := [memRead ready0.cfg 0x100] } = .fault .outsideWindow := by
  simp only [step, serve, memRead, test_outside_target, serveRead, finish]
theorem test_reset_event : stepped { failed24 with pending := [.reset] } = State.reset := by decide

/-- The first command after reset (V-SET-1): the step runs the word placed by `withFetchWord`. -/
theorem test_fetch_setup32 : statusWord (stepped (State.reset.withFetchWord 32 0x00002001)) = 0x00000001 := by decide
/-- R201: an illegal word on a context that is not READY. -/
theorem test_fetch_illegal : statusWord (stepped (State.reset.withFetchWord 32 0x00000103)) = 0x00000012 := by decide
/-- V-STR-7: the length is checked before READY. -/
theorem test_fetch_process200 : statusWord (stepped (State.reset.withFetchWord 32 0x0000c804)) = 0x00000042 := by decide

/-! ### Witnesses: each meets the hypotheses of the statement it names -/

theorem witness_IllegalWordsRaiseIllegalCommand :
    WritesCmd (writing State.reset 0x00010000 []) 0x00010000 [] ∧ IllegalR95 0x00010000 ∧ IllegalR95 0x80000001 ∧
    IllegalR95 0x00000010 ∧ IllegalR95 0x00000084 ∧ IllegalR95 0x00000006 ∧ IllegalR95 0x0000000F ∧ IllegalR95 0x00000100 ∧
    IllegalR95 0x0000FF05 ∧ ¬ IllegalR95 0x0000FF04 ∧ ¬ IllegalR95 0x00000005 := by
  refine ⟨rfl, ?_, ?_, ?_, ?_, ?_, ?_, ?_, ?_, ?_, ?_⟩ <;> unfold IllegalR95 <;> decide

theorem witness_DecodeOfEncode : (Instr.setup 255).wellFormed = true ∧ (Instr.process 0).wellFormed = true := by decide

theorem witness_EncodeOfDecode : decode 0x0000FF04 = .ok (.process 255) := by rfl

theorem witness_DecoderFollowsPseudocode :
    WritesCmd (writing ready0 0x0000000F []) 0x0000000F [] ∧ decodeR94 0x0000000F = none ∧
    WritesCmd (writing ready0 0x0000FF04 []) 0x0000FF04 [] ∧ decodeR94 0x0000FF04 = some (.process 255) := by
  refine ⟨rfl, by decide, rfl, by decide⟩

theorem witness_ResetValues :
    failed24.ready = false ∧ exec .genblk failed24 = .next (after .genblk failed24) ∧ ∀ n, Instr.genblk ≠ .setup n :=
  ⟨rfl, rfl, fun _ => by simp⟩

theorem witness_ResetRestoresResetValues :
    ({ failed24 with pending := [.reset] } : State).pending = [.reset] ∧
    WritesCmd (writing ready0 0x00000003 [.reset]) 0x00000003 [.reset] ∧
    step (writing ready0 0x00000003 [.reset]) = .next (stepped (writing ready0 0x00000003 [.reset])) := ⟨rfl, rfl, rfl⟩

theorem witness_NopWritesLastErrOnly :
    exec (.setup 24) State.reset = .next failed24 ∧ exec .nop failed24 = .next (after .nop failed24) := ⟨rfl, rfl⟩

theorem witness_ClrerrClearsErrorState :
    exec .clrerr failed24 = .next (after .clrerr failed24) ∧ failed24.errSticky = true ∧
    (after .clrerr failed24).errSticky = false ∧ exec (.setup 24) State.reset = .next failed24 := ⟨rfl, rfl, rfl, rfl⟩

theorem witness_Setup16LoadsContext :
    ∀ i : Fin 4, (#v[0, 0, 0, 0, 5, 6, 7, 8] : Vector Word 8)[i.val] = ready0.key[i.val] := by decide

theorem witness_SetupCommonPart :
    ({ ready0 with pending := [memWrite ready0.cfg (Reg.key 7).offset 9] } : State).pending =
      [memWrite ready0.cfg (Reg.key 7).offset 9] ∧
    ({ ready0 with pending := [memWrite ready0.cfg (Reg.nonce 1).offset 9] } : State).pending =
      [memWrite ready0.cfg (Reg.nonce 1).offset 9] := ⟨rfl, rfl⟩

theorem witness_SetupRejectsOtherLengths :
    ∀ n ∈ [0, 15, 17, 31, 33, 255], n ≠ 16 ∧ n ≠ 32 := by decide

theorem witness_SetupCornerCases :
    (∀ i : Fin 8, (16 : Nat) = 32 ∨ i.val < 4 →
      ready0.key[i] = ({ buffered0 9 with key := #v[0, 0, 0, 0, 5, 6, 7, 8] } : State).key[i]) ∧
    exec (.setup 16) ready0 = .next (after (.setup 16) ready0) ∧
    exec (.setup 16) { buffered0 9 with key := #v[0, 0, 0, 0, 5, 6, 7, 8] } =
      .next (after (.setup 16) { buffered0 9 with key := #v[0, 0, 0, 0, 5, 6, 7, 8] }) ∧
    exec (.setup 17) ready0 = .next (after (.setup 17) ready0) ∧
    State.reset.ready = false ∧ (after (.setup 32) State.reset).ready = true := by
  refine ⟨by decide, rfl, rfl, rfl, rfl, rfl⟩

/-- For SetctrLoadsCounter, NotReadyCommandsFail, GenblkDeliversBlock and ExhaustionBoundary. -/
theorem witness_ready_contexts :
    ready0.ready = true ∧ (buffered0 63).ready = true ∧ State.reset.ready = false ∧ ready0.avail = 0 ∧
    (buffered0 63).avail = 63 := by decide

theorem witness_SetctrReproducesBlock :
    ({ ready0 with ctrIn := #v[2, 0] } : State).ready = true ∧ ready0.s[12] = 0 ∧ ready0.s[13] = 0 ∧
    2 = (#v[2, 0] : Vector Word 2)[1].toNat * 2 ^ 32 + (#v[2, 0] : Vector Word 2)[0].toNat := by decide

/-- For QuarterRoundInPlace and DisjointQuarterRoundsCommute. -/
theorem witness_QuarterRounds : ([0, 4, 8, 12] : List (Fin 16)).Nodup ∧ Disjoint8 0 4 8 12 3 7 11 15 := by
  unfold Disjoint8; decide

theorem witness_DoubleRoundsInjective : doubleRounds 10 ready0.s = doubleRounds 10 ready0.s := rfl

theorem witness_BlockIsSerialisedLittleEndian :
    (∀ i : Fin 8, State.reset.key[i] = 0) ∧ (∀ i : Fin 2, State.reset.nonceIn[i] = 0) ∧
    exec (.setup 32) State.reset = .next ready0 ∧ exec .genblk ready0 = .next (after .genblk ready0) ∧
    (buffered0 63).avail < 64 := by
  refine ⟨by decide, by decide, rfl, rfl, by decide⟩

theorem witness_Counter64AdvancesByOne :
    (buffered0 63).cfg.carryMode = .c64 ∧ (buffered0 63).ready = true ∧ (buffered0 63).avail < 64 ∧ ready0.avail < 1 := by
  decide

theorem witness_Counter128AdvancesByOne :
    (wide (buffered0 63)).cfg.carryMode = .c128 ∧ (wide (buffered0 63)).ready = true ∧ (wide (buffered0 63)).avail < 64 := by
  decide

/-- The clauses of ProcessStreamsBytes at AVAIL 24: a tail byte, a fresh byte, a byte behind the output; both branches. -/
theorem witness_ProcessStreamsBytes :
    (buffered0 24).ready = true ∧ (23 < 40 ∧ 23 < (buffered0 24).avail) ∧ (39 < 40 ∧ (buffered0 24).avail ≤ 39) ∧
    (40 ≤ 63 ∧ 63 < 64) ∧ 24 ≤ (buffered0 24).avail ∧ (buffered0 24).avail < 25 := by decide

theorem witness_ProcessErrorsAndEmptyInput :
    64 < 65 ∧ 64 ≤ 64 ∧ State.reset.ready = false ∧ ready0.ready = true := by decide

theorem witness_ProcessIsInvolution :
    (buffered0 24).ready = true ∧
    exec (.process 40) (buffered0 24) = .next (after (.process 40) (buffered0 24)) ∧
    firstBytes 40 ({ buffered0 24 with din := (after (.process 40) (buffered0 24)).dout } : State).din =
      firstBytes 40 (after (.process 40) (buffered0 24)).dout := ⟨rfl, rfl, rfl⟩

theorem witness_StreamPositionLaw :
    ready0.ready = true ∧ ready0.avail = 0 ∧
    ∀ c ∈ ([(64, blk1), (0, blk1), (1, blk4)] : List Chunk), c.1 ≤ 64 := by decide

theorem witness_ChunkingIsInvisible :
    (buffered0 63).ready = true ∧ (buffered0 63).avail ≤ 64 ∧
    (∀ c ∈ ([(2, blk1)] : List Chunk), c.1 ≤ 64) ∧
    (∀ c ∈ ([(1, blk1), (0, blk4), (1, #v[0xb8, 0, 0, 0, 0, 0, 0, 0, 0, 0, 0, 0, 0, 0, 0, 0])] : List Chunk), c.1 ≤ 64) ∧
    message [(2, blk1)] = message [(1, blk1), (0, blk4), (1, #v[0xb8, 0, 0, 0, 0, 0, 0, 0, 0, 0, 0, 0, 0, 0, 0, 0])] := by
  refine ⟨by decide, by decide, by decide, by decide, by decide⟩

theorem witness_GenblkInsideStream :
    (buffered0 54).ready = true ∧ 0 < (buffered0 54).avail ∧ (buffered0 54).avail < 60 ∧ 60 ≤ 64 := by decide

theorem witness_SeekToByteOffset : ready0.ready = true ∧ 63 < 64 ∧ 1 ≤ 1 ∧ 63 + 1 ≤ 64 := by decide

theorem witness_UnreadDinBytesAreIgnored :
    firstBytes 1 (#v[0, 7, 0, 0, 0, 0, 0, 0, 0, 0, 0, 0, 0, 0, 0, 0] : Words16) = firstBytes 1 (buffered0 24).din ∧
    exec (.process 1) (buffered0 24) = .next (after (.process 1) (buffered0 24)) := ⟨by decide, rfl⟩

theorem witness_EveryCommandReportsItsCode :
    WritesCmd (writing State.reset 0x00004104 []) 0x00004104 [] ∧ codeR201 false 0x00004104 = 4 ∧
    codeR201 false 0x00000103 = 1 ∧ codeR201 false 0x00000001 = 2 ∧ codeR201 false 0x00004004 = 3 ∧
    codeR201 true 0x00004004 = 0 ∧ codeR201 true 0xFFFFFFFF = 1 := by
  refine ⟨rfl, ?_⟩; decide

theorem witness_ErrorsChangeOnlyErrorState :
    step (writing State.reset 0x00000003 []) = .next (stepped (writing State.reset 0x00000003 [])) ∧
    (stepped (writing State.reset 0x00000003 [])).lastErr = 3 ∧
    step (writing (buffered0 48) 0x00000001 []) = .next (stepped (writing (buffered0 48) 0x00000001 [])) ∧
    (stepped (writing (buffered0 48) 0x00000001 [])).lastErr = 2 ∧
    exec (.process 0) State.reset = .next (after (.process 0) State.reset) := ⟨rfl, rfl, rfl, rfl, rfl⟩

theorem witness_StickyRecordsFailures :
    step (writing failed24 0x00000005 []) = .next (stepped (writing failed24 0x00000005 [])) ∧ failed24.errSticky = true ∧
    (stepped (writing failed24 0x00000005 [])).errSticky = false ∧ codeR201 false 0x00000006 ≠ 0 := by
  refine ⟨rfl, rfl, rfl, by decide⟩

theorem witness_SuccessLeavesStickyUnchanged :
    exec (.setup 32) failed24 = .next (after (.setup 32) failed24) ∧ (after (.setup 32) failed24).lastErr = 0 ∧
    Instr.setup 32 ≠ .clrerr := ⟨rfl, rfl, by decide⟩

theorem witness_ReadyWriters :
    step (writing ready0 0x00000001 []) = .next (stepped (writing ready0 0x00000001 [])) ∧
    ready0.ready ≠ (stepped (writing ready0 0x00000001 [])).ready ∧
    exec .nop ready0 = .next (after .nop ready0) ∧ ∀ n, Instr.nop ≠ .setup n :=
  ⟨rfl, by decide, rfl, fun _ => by simp⟩

/-- For IdAndConfigAreConstant, StatusLayout and WritesStoreWholeRegister. -/
theorem witness_registers_written :
    ({ ready0 with pending := [memWrite ready0.cfg 0x000 1] } : State).pending = [memWrite ready0.cfg 0x000 1] ∧
    ({ ready0 with pending := [memWrite ready0.cfg 0x008 1] } : State).pending = [memWrite ready0.cfg 0x008 1] ∧
    ({ ready0 with pending := [memWrite ready0.cfg (0x080 + 4 * 15) 1] } : State).pending =
      [memWrite ready0.cfg (0x080 + 4 * (15 : Fin 16).val) 1] ∧
    IsRW (.din 15) ∧ IsRO (.dout 15) := ⟨rfl, rfl, rfl, .inr (.inr ⟨15, rfl⟩), .inr (.inr (.inr (.inr ⟨15, rfl⟩)))⟩

theorem witness_CmdWriteRunsDecodedCommand :
    WritesCmd (writing ready0 (encode (.process 255)) []) (encode (.process 255)) [] ∧
    decode (encode (.process 255)) = .ok (.process 255) ∧
    ({ ready0 with pending := [memRead ready0.cfg 0x004] } : State).pending = [memRead ready0.cfg 0x004] := ⟨rfl, rfl, rfl⟩

theorem witness_ReadsReturnRegisters :
    ({ ready0 with pending := [memWrite ready0.cfg (Reg.din 15).offset 7, memRead ready0.cfg (Reg.din 15).offset] } : State).pending =
      memWrite ready0.cfg (Reg.din 15).offset 7 :: memRead ready0.cfg (Reg.din 15).offset :: [] ∧ IsRW (.din 15) ∧
    IsRW (.nonce 1) ∧ IsRW (.ctrin 1) := ⟨rfl, .inr (.inr ⟨15, rfl⟩), .inl ⟨1, rfl⟩, .inr (.inl ⟨1, rfl⟩)⟩

/-- For BusErrorsHaveNoEffect and the last clause of RegisterMapOffsets, at the ends of the reserved ranges. -/
theorem witness_BusErrorsHaveNoEffect :
    AccessWidth.bits8 ≠ .bits32 ∧ 0x0FF % 4 ≠ 0 ∧ Reserved 0x010 ∧ Reserved 0x01F ∧ Reserved 0x060 ∧ Reserved 0x07F ∧
    ¬ Reserved 0x00F ∧ ¬ Reserved 0x020 ∧ ¬ Reserved 0x05F ∧ ¬ Reserved 0x080 := by
  refine ⟨by decide, by decide, ?_, ?_, ?_, ?_, ?_, ?_, ?_, ?_⟩ <;> unfold Reserved <;> decide

theorem witness_KeyMaterialHasNoReadPath :
    SamePublic { ready0 with pending := [memRead ready0.cfg 0x020] }
      { ready0 with key := #v[1, 2, 3, 4, 5, 6, 7, 8], ks := blk1, s := ready0.s.set 11 9, pending := [memRead ready0.cfg 0x020] } ∧
    step { ready0 with pending := [memRead ready0.cfg 0x020] } =
      .next (stepped { ready0 with pending := [memRead ready0.cfg 0x020] }) :=
  ⟨⟨rfl, by decide, rfl, rfl, rfl, rfl, rfl, rfl, rfl, rfl, rfl, rfl⟩, rfl⟩

theorem witness_AccessesServedInArrivalOrder :
    (writing ready0 0x00000003 [.reset]).pending = memWrite ready0.cfg 0x004 0x00000003 :: [.reset] ∧
    step (writing ready0 0x00000003 [.reset]) = .next (stepped (writing ready0 0x00000003 [.reset])) ∧
    memWrite ready0.cfg 0x004 0x00000003 ≠ .reset := ⟨rfl, rfl, by decide⟩

theorem witness_LatencyIsReadByNoRule :
    step (writing ready0 0x00000003 []) = .next (stepped (writing ready0 0x00000003 [])) ∧
    step { ready0 with pending := [memRead ready0.cfg 0x100] } = .fault .outsideWindow := ⟨rfl, test_outside_window⟩

/-- For CommandsKeepInputRegisters, ContextWordWriters, BufferAndAvailWriters and DoutLifetime. -/
theorem witness_command_frames :
    exec .genblk ready0 = .next (after .genblk ready0) ∧ (after .genblk ready0).s ≠ ready0.s ∧
    (after .genblk ready0).dout ≠ ready0.dout ∧ (∀ n, Instr.genblk ≠ .setup n) ∧
    exec (.process 64) (buffered0 63) = .next (after (.process 64) (buffered0 63)) := by
  refine ⟨rfl, by decide +kernel, by decide +kernel, fun _ => by simp, rfl⟩

theorem witness_PseudoInstructionsRun :
    ({ ready0 with pending := HostLine.accesses ready0.cfg (.seek 0xFFFFFFFF00000001) } : State).pending =
      [memWrite ready0.cfg 0x048 0x00000001, memWrite ready0.cfg 0x04C 0xFFFFFFFF, memWrite ready0.cfg 0x004 0x00000002] ∧
    (HostLine.accesses ready0.cfg (.ldkey32 #v[0, 1, 2, 3, 4, 5, 6, 7])).length = 8 ∧
    (HostLine.accesses ready0.cfg (.ldkey16 #v[0, 1, 2, 3])).length = 4 ∧
    HostLine.accesses ready0.cfg (.ldnonce 3 4) = [memWrite ready0.cfg 0x040 3, memWrite ready0.cfg 0x044 4] ∧
    ready0.ready = true := by decide

/-- The state of P2 after ENCRYPT 16, up to its key: READY, 48 bytes of a block of this context buffered. -/
theorem witness_StepKeepsInv :
    (writing { ready0 with s := ready0.s.set 12 1, ks := block ready0.s, avail := 48 } 0x00000003 []).Inv ∧
    step (writing { ready0 with s := ready0.s.set 12 1, ks := block ready0.s, avail := 48 } 0x00000003 []) =
      .next (stepped (writing { ready0 with s := ready0.s.set 12 1, ks := block ready0.s, avail := 48 } 0x00000003 [])) := by
  refine ⟨⟨by decide, fun _ => .inl ⟨rfl, rfl, rfl, rfl⟩, ?_, fun _ => rfl, fun _ => ⟨ready0.s, ⟨?_, fun _ => ⟨rfl, rfl⟩⟩, rfl⟩,
    by decide, fun h => absurd rfl h⟩, rfl⟩
  · rintro _ ⟨_, h1, _⟩
    exact absurd h1 (by decide)
  · decide

theorem witness_ReachableAvailBelow64 : State.Reachable ({ State.resetWith Config.default with pending := [.reset] } : State) :=
  ⟨Config.default, [.reset], 0, rfl⟩

end Sys2Proof.Tests
end

section
/-! The rotation of spec/00_scope.md R13 bit by bit, and the laws R131 infers from it. -/

namespace Sys2Proof.Machine

/-- `rotl` is the library's rotation, for the amounts R13 admits and 0. -/
theorem rotl_eq_rotateLeft (v : Word) (n : Nat) (hn : n < 32) : rotl v n = v.rotateLeft n := by
  rw [BitVec.rotateLeft_def, Nat.mod_eq_of_lt hn, rotl]

/-- Bit i of the rotated word is bit i - n, taken around the end of the word (R131). -/
theorem getLsbD_rotl (v : Word) (n i : Nat) (hn : n < 32) (hi : i < 32) :
    (rotl v n).getLsbD i = v.getLsbD ((i + 32 - n) % 32) := by
  rw [rotl_eq_rotateLeft v n hn, BitVec.getLsbD_rotateLeft_of_le hn]
  by_cases hlow : i < n
  · have hidx : (i + 32 - n) % 32 = 32 - n + i := by omega
    simp [hlow, hidx]
  · have hidx : (i + 32 - n) % 32 = i - n := by omega
    simp [hlow, hi, hidx]

/-- Rotation amounts add modulo the word's width (R131). -/
theorem rotl_rotl (v : Word) (a b : Nat) (ha : a < 32) (hb : b < 32) :
    rotl (rotl v a) b = rotl v ((a + b) % 32) := by
  refine BitVec.eq_of_getLsbD_eq fun i hi => ?_
  have hidx : ((i + 32 - b) % 32 + 32 - a) % 32 = (i + 32 - (a + b) % 32) % 32 := by omega
  rw [getLsbD_rotl _ b i hb hi, getLsbD_rotl v a _ ha (Nat.mod_lt _ (by decide)),
    getLsbD_rotl v _ i (Nat.mod_lt _ (by decide)) hi, hidx]

/-- A rotation by 0, where a full turn of the word ends. -/
@[simp] theorem rotl_zero (v : Word) : rotl v 0 = v := by
  refine BitVec.eq_of_getLsbD_eq fun i hi => ?_
  have hidx : (i + 32 - 0) % 32 = i := by omega
  rw [getLsbD_rotl v 0 i (by decide) hi, hidx]

/-- A word whose bits are all the same is its own rotation. -/
theorem rotl_of_bits_eq (v : Word) (bit : Bool) (n : Nat) (hn : n < 32) (hbits : ∀ i < 32, v.getLsbD i = bit) :
    rotl v n = v := by
  refine BitVec.eq_of_getLsbD_eq fun i hi => ?_
  rw [getLsbD_rotl v n i hn hi, hbits _ (Nat.mod_lt _ (by decide)), hbits i hi]

/-- Settles O19: each clause follows from where a rotation puts bit i (`getLsbD_rotl`). -/
theorem wordLaws : Obligations.WordLaws := by
  refine ⟨fun v n i _ hn => getLsbD_rotl v n i hn i.isLt, fun v a b _ ha _ hb _ => rotl_rotl v a b ha hb, ?_, ?_,
    BitVec.toNat_add⟩
  · intro v a b hpos ha hsum
    rw [rotl_rotl v a b ha (by omega), hsum, Nat.mod_self, rotl_zero]
  · intro n _ hn
    have hones : ∀ i < 32, (0xFFFFFFFF : Word).getLsbD i = true := by decide
    exact ⟨rotl_of_bits_eq 0 false n hn fun _ _ => BitVec.getLsbD_zero, rotl_of_bits_eq _ true n hn hones⟩

end Sys2Proof.Machine
end

section
/-! Changing CMD_LATENCY commutes with every operation of the machine (spec/00_scope.md R12, spec/70_reset_and_hazards.md
R233): first the shared operations, then the commands, then the bus and the step. -/

namespace Sys2Proof.Machine

open Sys2Proof.Spec

/-! ### Mapping the state an operation answers with -/

/-- The outcome with `f` applied to the next state. -/
def mapNext (f : State → State) : Host.Outcome State Fault Refusal → Host.Outcome State Fault Refusal
  | .next s => .next (f s)
  | .fault r => .fault r
  | .refused r => .refused r

/-- The served event with `f` applied to its state. -/
def Served.mapState (f : State → State) : Served → Served
  | .done s => .done (f s)
  | .command v s => .command v (f s)
  | .outside => .outside

/-! ### The shared operations and the commands -/

/-- No error's effect depends on the build (R192, R193). -/
theorem raise_withLatency (l : Nat) (e : CmdError) (s : State) :
    raise e (withLatency l s) = withLatency l (raise e s) := by
  cases e <;> rfl

/-- PROCESS gives the same bytes; the counter advance reads the carry mode alone from the build (R138, R139). -/
theorem stream_withLatency (l n : Nat) (s : State) :
    stream n (withLatency l s) = ((stream n s).1, withLatency l (stream n s).2) := by
  refine Prod.ext ?_ ?_
  · rw [stream_bytes, stream_bytes]
    rfl
  · rw [stream_state, stream_state, apply_ite (withLatency l)]
    rfl

theorem execSetup_withLatency (l n : Nat) (s : State) :
    execSetup n (withLatency l s) = mapNext (withLatency l) (execSetup n s) := by
  by_cases h32 : n = 32
  · rw [h32, execSetup_32, execSetup_32]
    rfl
  by_cases h16 : n = 16
  · rw [h16, execSetup_16, execSetup_16]
    rfl
  rw [execSetup_other n _ h16 h32, execSetup_other n _ h16 h32, raise_withLatency, mapNext]

theorem execSetctr_withLatency (l : Nat) (s : State) :
    execSetctr (withLatency l s) = mapNext (withLatency l) (execSetctr s) := by
  cases hr : s.ready with
  | true =>
    rw [execSetctr_ready s hr, execSetctr_ready (withLatency l s) hr]
    rfl
  | false => rw [execSetctr_notReady s hr, execSetctr_notReady (withLatency l s) hr, raise_withLatency, mapNext]

theorem execGenblk_withLatency (l : Nat) (s : State) :
    execGenblk (withLatency l s) = mapNext (withLatency l) (execGenblk s) := by
  cases hr : s.ready with
  | true =>
    rw [execGenblk_ready s hr, execGenblk_ready (withLatency l s) hr]
    rfl
  | false => rw [execGenblk_notReady s hr, execGenblk_notReady (withLatency l s) hr, raise_withLatency, mapNext]

theorem execProcess_withLatency (l n : Nat) (s : State) :
    execProcess n (withLatency l s) = mapNext (withLatency l) (execProcess n s) := by
  by_cases hlong : 64 < n
  · rw [execProcess_tooLong n s hlong, execProcess_tooLong n _ hlong, raise_withLatency, mapNext]
  have hlen : n ≤ 64 := Nat.not_lt.mp hlong
  cases hr : s.ready with
  | false =>
    rw [execProcess_notReady n s hlen hr, execProcess_notReady n (withLatency l s) hlen hr, raise_withLatency, mapNext]
  | true =>
    by_cases hzero : n = 0
    · rw [hzero, execProcess_empty s hr, execProcess_empty (withLatency l s) hr]
      rfl
    · rw [execProcess_ready n s hlen hzero hr, execProcess_ready n (withLatency l s) hlen hzero hr, stream_withLatency]
      rfl

theorem exec_withLatency (l : Nat) (i : Instr) (s : State) :
    exec i (withLatency l s) = mapNext (withLatency l) (exec i s) := by
  cases i with
  | nop => rfl
  | setup keyLen => exact execSetup_withLatency l keyLen s
  | setctr => exact execSetctr_withLatency l s
  | genblk => exact execGenblk_withLatency l s
  | process len => exact execProcess_withLatency l len s
  | clrerr => rfl

theorem runCommand_withLatency (l : Nat) (v : Word) (s : State) :
    runCommand v (withLatency l s) = mapNext (withLatency l) (runCommand v s) := by
  unfold runCommand
  cases decode v with
  | ok i => exact exec_withLatency l i s
  | error e => rfl

/-! ### The bus and the step -/

/-- No register shows CMD_LATENCY: CONFIG reads the carry mode alone from the build (R42). -/
theorem readReg_withLatency (l : Nat) (r : Reg) (s : State) : readReg r (withLatency l s) = readReg r s := by
  cases r <;> rfl

theorem serveRead_withLatency (l : Nat) (t : Target) (s : State) :
    serveRead t (withLatency l s) = (serveRead t s).mapState (withLatency l) := by
  cases t with
  | outside => rfl
  | busError => rfl
  | reg r =>
    simp only [serveRead, readReg_withLatency]
    rfl

theorem serveWrite_withLatency (l : Nat) (t : Target) (v : Word) (s : State) :
    serveWrite t v (withLatency l s) = (serveWrite t v s).mapState (withLatency l) := by
  cases t with
  | outside => rfl
  | busError => rfl
  | reg r => cases r <;> rfl

/-- The address check reads BASE alone from the build (R60), so it finds the same target. -/
theorem serve_withLatency (l : Nat) (e : BusEvent) (s : State) :
    serve e (withLatency l s) = (serve e s).mapState (withLatency l) := by
  cases e with
  | read width addr => exact serveRead_withLatency l (locate s.cfg width addr) s
  | write width addr v => exact serveWrite_withLatency l (locate s.cfg width addr) v s
  | reset => rfl

theorem finish_mapState_withLatency (l : Nat) (x : Served) :
    finish (x.mapState (withLatency l)) = mapNext (withLatency l) (finish x) := by
  cases x with
  | done s => rfl
  | command v s => exact runCommand_withLatency l v s
  | outside => rfl

theorem step_withLatency (l : Nat) (s : State) : step (withLatency l s) = mapNext (withLatency l) (step s) := by
  cases hp : s.pending with
  | nil =>
    rw [step_nil s hp, step_nil (withLatency l s) hp]
    rfl
  | cons e rest =>
    rw [step_cons s e rest hp, step_cons (withLatency l s) e rest hp, ← finish_mapState_withLatency,
      ← serve_withLatency]
    rfl

/-- Settles O52: a change of CMD_LATENCY commutes with the step (`step_withLatency`). -/
theorem latencyIsReadByNoRule : Obligations.LatencyIsReadByNoRule := by
  intro s l
  rw [step_withLatency l s]
  refine ⟨fun t h => ?_, fun f h => ?_⟩
  · rw [h, mapNext]
  · rw [h, mapNext]

end Sys2Proof.Machine
end

section
/-! Everything a command can do, said once: `CommandEffect` holds one constructor per outcome of the rules of the six commands
(spec/40_setup_counter.md to spec/43_control.md), and `effect_of_exec` and `exec_of_effect` tie it to `exec`. The claims about
which command writes which part of the state are case splits over it. -/

namespace Sys2Proof.Machine

/-! ### The outcomes of a command -/

/-- The outcomes of a command on state `s`. -/
inductive CommandEffect (s : State) : Instr → State → Prop
  /-- R180. -/
  | nop : CommandEffect s .nop (succeed s)
  /-- R181. -/
  | clrerr : CommandEffect s .clrerr (clearErrors s)
  /-- R112. -/
  | setup32 : CommandEffect s (.setup 32)
      (installContext (contextWords constants32 (keyLow s) (keyHigh s) s.nonceIn) s)
  /-- R113. -/
  | setup16 : CommandEffect s (.setup 16)
      (installContext (contextWords constants16 (keyLow s) (keyLow s) s.nonceIn) s)
  /-- R111, R193. -/
  | setupOther (n : Nat) (h16 : n ≠ 16) (h32 : n ≠ 32) :
      CommandEffect s (.setup n) (raise .invalidKeyLength s)
  /-- R118. -/
  | setctr (ready : s.ready = true) : CommandEffect s .setctr
      (succeed { s with s := (s.s.set 12 s.ctrIn[0]).set 13 s.ctrIn[1], ks := zeros16, avail := 0 })
  /-- R145. -/
  | genblk (ready : s.ready = true) : CommandEffect s .genblk
      (succeed (advanceCounter { s with dout := block s.s }))
  /-- R162. -/
  | processEmpty (ready : s.ready = true) : CommandEffect s (.process 0) (succeed s)
  /-- R163: the buffer holds enough. -/
  | processTail (n : Nat) (ready : s.ready = true) (pos : 1 ≤ n) (le : n ≤ 64) (tail : n ≤ s.avail) :
      CommandEffect s (.process n)
        (succeed { s with avail := s.avail - n, dout := packBytes (stream n s).1 })
  /-- R164, R165: a block is generated. -/
  | processFresh (n : Nat) (ready : s.ready = true) (le : n ≤ 64) (fresh : s.avail < n) :
      CommandEffect s (.process n)
        (succeed { generate s with avail := 64 - (n - s.avail), dout := packBytes (stream n s).1 })
  /-- R171, R197. -/
  | processTooLong (n : Nat) (long : 64 < n) : CommandEffect s (.process n) (raise .lengthTooLarge s)
  /-- R196. -/
  | notReady {i : Instr} (notReady : s.ready = false)
      (needs : i = .setctr ∨ i = .genblk ∨ ∃ n, n ≤ 64 ∧ i = .process n) :
      CommandEffect s i (raise .notInitialized s)

/-- SETUP answers one of its outcomes. -/
theorem execSetup_effect (n : Nat) (s : State) :
    ∃ t, execSetup n s = .next t ∧ CommandEffect s (.setup n) t := by
  by_cases h32 : n = 32
  · subst h32
    exact ⟨_, execSetup_32 s, .setup32⟩
  by_cases h16 : n = 16
  · subst h16
    exact ⟨_, execSetup_16 s, .setup16⟩
  exact ⟨_, execSetup_other n s h16 h32, .setupOther n h16 h32⟩

/-- PROCESS answers one of its outcomes. -/
theorem execProcess_effect (n : Nat) (s : State) :
    ∃ t, execProcess n s = .next t ∧ CommandEffect s (.process n) t := by
  by_cases hlong : 64 < n
  · exact ⟨_, execProcess_tooLong n s hlong, .processTooLong n hlong⟩
  have hlen : n ≤ 64 := Nat.not_lt.mp hlong
  cases hr : s.ready with
  | false => exact ⟨_, execProcess_notReady n s hlen hr, .notReady hr (.inr (.inr ⟨n, hlen, rfl⟩))⟩
  | true =>
    by_cases hzero : n = 0
    · subst hzero
      exact ⟨_, execProcess_empty s hr, .processEmpty hr⟩
    refine ⟨_, execProcess_ready n s hlen hzero hr, ?_⟩
    rw [stream_state]
    split_ifs with hmore
    · exact .processFresh n hr hlen hmore
    · exact .processTail n hr (Nat.pos_of_ne_zero hzero) hlen (Nat.not_lt.mp hmore)

/-- Every command answers one of its outcomes; none faults or is refused. -/
theorem exec_effect (i : Instr) (s : State) : ∃ t, exec i s = .next t ∧ CommandEffect s i t := by
  cases i with
  | nop => exact ⟨_, rfl, .nop⟩
  | clrerr => exact ⟨_, rfl, .clrerr⟩
  | setup n => exact execSetup_effect n s
  | process n => exact execProcess_effect n s
  | setctr =>
    cases hr : s.ready with
    | true => exact ⟨_, execSetctr_ready s hr, .setctr hr⟩
    | false => exact ⟨_, execSetctr_notReady s hr, .notReady hr (.inl rfl)⟩
  | genblk =>
    cases hr : s.ready with
    | true => exact ⟨_, execGenblk_ready s hr, .genblk hr⟩
    | false => exact ⟨_, execGenblk_notReady s hr, .notReady hr (.inr (.inl rfl))⟩

/-- What a command answers is one of its outcomes. -/
theorem effect_of_exec {i : Instr} {s t : State} (h : exec i s = .next t) : CommandEffect s i t := by
  obtain ⟨u, hu, he⟩ := exec_effect i s
  rw [hu, Host.Outcome.next.injEq] at h
  exact h ▸ he

/-- Each of the outcomes is what the command answers. -/
theorem exec_of_effect {i : Instr} {s t : State} (h : CommandEffect s i t) : exec i s = .next t := by
  cases h with
  | nop => rfl
  | clrerr => rfl
  | setup32 => exact execSetup_32 s
  | setup16 => exact execSetup_16 s
  | setupOther n h16 h32 => exact execSetup_other n s h16 h32
  | setctr hr => exact execSetctr_ready s hr
  | genblk hr => exact execGenblk_ready s hr
  | processEmpty hr => exact execProcess_empty s hr
  | processTail n hr hpos hle htail =>
    have hstate := stream_state n s
    rw [if_neg (Nat.not_lt.mpr htail)] at hstate
    exact (execProcess_ready n s hle (by omega) hr).trans (by rw [hstate])
  | processFresh n hr hle hfresh =>
    have hstate := stream_state n s
    rw [if_pos hfresh] at hstate
    exact (execProcess_ready n s hle (by omega) hr).trans (by rw [hstate])
  | processTooLong n hlong => exact execProcess_tooLong n s hlong
  | notReady hr hneeds =>
    obtain rfl | rfl | ⟨n, hn, rfl⟩ := hneeds
    · exact execSetctr_notReady s hr
    · exact execGenblk_notReady s hr
    · exact execProcess_notReady n s hn hr

/-! ### What the commands write -/

/-- Settles O53: none of the twelve outcomes writes an input register, the build or the bus lists. -/
theorem commandsKeepInputRegisters : Obligations.CommandsKeepInputRegisters := by
  intro i s t h
  cases effect_of_exec h <;> simp

/-- Settles O56: the outcomes that write DOUT are those of GENBLK and of a PROCESS that streams bytes. -/
theorem doutLifetime : Obligations.DoutLifetime := by
  intro i s t h hdout
  cases effect_of_exec h with
  | genblk hr => exact ⟨rfl, hr, .inl rfl⟩
  | processTail n hr hpos hle => exact ⟨rfl, hr, .inr ⟨n, hpos, hle, rfl⟩⟩
  | processFresh n hr hle hfresh => exact ⟨rfl, hr, .inr ⟨n, by omega, hle, rfl⟩⟩
  | _ => exact absurd (by simp) hdout

/-- Settles O55: each outcome keeps the buffer, zeroes it, or fills it with the block of the old context. -/
theorem bufferAndAvailWriters : Obligations.BufferAndAvailWriters := by
  intro i s t h
  cases effect_of_exec h with
  | setup32 => exact ⟨.inr (.inl ⟨rfl, .inr (.inl rfl)⟩), .inr (.inl ⟨rfl, .inr ⟨32, rfl⟩⟩)⟩
  | setup16 => exact ⟨.inr (.inl ⟨rfl, .inl rfl⟩), .inr (.inl ⟨rfl, .inr ⟨16, rfl⟩⟩)⟩
  | setupOther n => exact ⟨.inl rfl, .inr (.inl ⟨rfl, .inr ⟨n, rfl⟩⟩)⟩
  | setctr => exact ⟨.inr (.inl ⟨rfl, .inr (.inr rfl)⟩), .inr (.inl ⟨rfl, .inl rfl⟩)⟩
  | processTail n _ _ _ htail => exact ⟨.inl rfl, .inr (.inr ⟨n, rfl, .inl ⟨htail, rfl⟩⟩)⟩
  | processFresh n _ hle hfresh =>
    exact ⟨.inr (.inr ⟨rfl, n, rfl, hfresh, hle⟩), .inr (.inr ⟨n, rfl, .inr ⟨hfresh, rfl⟩⟩)⟩
  | _ => exact ⟨.inl (by simp), .inl (by simp)⟩

/-! ### What the commands write in the context -/

/-- SETCTR writes words 12 and 13 alone, so in no carry mode another word than an advance may write (R118, R24). -/
theorem sameButCounter_setCounter (mode : CarryMode) (w : Words16) (lo hi : Word) :
    SameButCounter mode ((w.set 12 lo).set 13 hi) w := by
  refine ⟨fun k hk => ?_, fun _ => by simp⟩
  have h12 : 12 ≠ k.val := by omega
  have h13 : 13 ≠ k.val := by omega
  simp [h12, h13]

/-- The counter advance writes only what its carry mode lets it write (R138, R139). -/
theorem sameButCounter_advance (mode : CarryMode) (w : Words16) : SameButCounter mode (advance mode w) w :=
  ⟨fun k hk => advance_below12 mode w k hk, fun hmode => hmode ▸ advance_c64_nonce w⟩

theorem sameButCounter_refl (mode : CarryMode) (w : Words16) : SameButCounter mode w w :=
  ⟨fun _ _ => rfl, fun _ => ⟨rfl, rfl⟩⟩

/-- The words of the context after any command but SETUP (R24, R25). -/
theorem sameButCounter_of_effect {i : Instr} {s t : State} (hsetup : ∀ n, i ≠ .setup n) (h : CommandEffect s i t) :
    SameButCounter s.cfg.carryMode t.s s.s := by
  cases h with
  | setup32 => exact absurd rfl (hsetup 32)
  | setup16 => exact absurd rfl (hsetup 16)
  | setctr => exact sameButCounter_setCounter _ _ _ _
  | genblk => exact sameButCounter_advance _ _
  | processFresh => exact sameButCounter_advance _ _
  | _ => simpa using sameButCounter_refl s.cfg.carryMode s.s

/-- SETCTR leaves the nonce words in both carry modes (R118). -/
theorem setctr_keeps_nonce {s t : State} (h : CommandEffect s .setctr t) : t.s[14] = s.s[14] ∧ t.s[15] = s.s[15] := by
  cases h <;> simp

/-- Settles O54: the outcomes that write the context are those of SETUP, SETCTR and the two generating commands. -/
theorem contextWordWriters : Obligations.ContextWordWriters := by
  intro i s t hsetup h
  have heffect := effect_of_exec h
  obtain ⟨hlow, hnonce⟩ := sameButCounter_of_effect hsetup heffect
  refine ⟨hlow, ?_, fun hs => ?_⟩
  · rintro (hmode | rfl)
    · exact hnonce hmode
    · exact setctr_keeps_nonce heffect
  · cases heffect with
    | setup32 => exact absurd rfl (hsetup 32)
    | setup16 => exact absurd rfl (hsetup 16)
    | setctr => exact .inl rfl
    | genblk => exact .inr (.inl rfl)
    | processFresh n _ _ hfresh => exact .inr (.inr ⟨n, hfresh, rfl⟩)
    | _ => exact absurd (by simp) hs

/-! ### READY and the error fields -/

/-- SETUP makes the context READY exactly for the two legal lengths (R32, R111). -/
theorem setup_ready_iff {n : Nat} {s t : State} (h : CommandEffect s (.setup n) t) :
    t.ready = true ↔ n = 16 ∨ n = 32 := by
  cases h with
  | setup32 => simp
  | setup16 => simp
  | setupOther _ h16 h32 => simp [h16, h32]
  | notReady _ hneeds => simp at hneeds

/-- No command but SETUP writes READY (R32). -/
theorem effect_keeps_ready {i : Instr} {s t : State} (hsetup : ∀ n, i ≠ .setup n) (h : CommandEffect s i t) :
    t.ready = s.ready := by
  cases h with
  | setup32 => exact absurd rfl (hsetup 32)
  | setup16 => exact absurd rfl (hsetup 16)
  | setupOther n => exact absurd rfl (hsetup n)
  | _ => simp

/-- A context that is not READY keeps its words, buffer and AVAIL under every command but SETUP (R52). -/
theorem effect_notReady_keeps_context {i : Instr} {s t : State} (hsetup : ∀ n, i ≠ .setup n) (hr : s.ready = false)
    (h : CommandEffect s i t) : t.s = s.s ∧ t.ks = s.ks ∧ t.avail = s.avail := by
  cases h with
  | setup32 => exact absurd rfl (hsetup 32)
  | setup16 => exact absurd rfl (hsetup 16)
  | setupOther n => exact absurd rfl (hsetup n)
  | setctr hready => simp [hr] at hready
  | genblk hready => simp [hr] at hready
  | processTail _ hready => simp [hr] at hready
  | processFresh _ hready => simp [hr] at hready
  | _ => simp

/-- On a context that is not READY the commands that need one record an error (R196, R197). -/
theorem effect_notReady_fails {i : Instr} {s t : State} (hr : s.ready = false)
    (hi : i = .setctr ∨ i = .genblk ∨ ∃ n, i = .process n) (h : CommandEffect s i t) : t.lastErr ≠ 0 := by
  cases h with
  | setctr hready => simp [hr] at hready
  | genblk hready => simp [hr] at hready
  | processEmpty hready => simp [hr] at hready
  | processTail _ hready => simp [hr] at hready
  | processFresh _ hready => simp [hr] at hready
  | processTooLong => simp [CmdError.code]
  | notReady => simp [CmdError.code]
  | _ => simp at hi

/-- Every command leaves 0 or one of the codes 2 to 4 in LAST_ERR (R191). -/
theorem effect_lastErr_le {i : Instr} {s t : State} (h : CommandEffect s i t) : t.lastErr ≤ 4 := by
  cases h <;> simp [CmdError.code]

/-- A command that records an error sets ERR_STICKY (R33, R192). -/
theorem effect_error_sticks {i : Instr} {s t : State} (h : CommandEffect s i t) (herr : t.lastErr ≠ 0) :
    t.errSticky = true := by
  cases h <;> simp at herr ⊢

/-- CLRERR alone clears ERR_STICKY among the commands (R33, R181). -/
theorem effect_clears_sticky {i : Instr} {s t : State} (h : CommandEffect s i t) (hs : s.errSticky = true)
    (ht : t.errSticky = false) : i = .clrerr := by
  cases h with
  | clrerr => rfl
  | _ => simp [hs] at ht

end Sys2Proof.Machine
end

section
/-! The step, said once: `StepEffect` holds one constructor per kind of access the engine serves (spec/20_memory.md R60 to R72),
and `effect_of_step` gives the one that applies. Before it, what the register map, the decoder and the encoder say about the
words a host writes to CMD. -/

namespace Sys2Proof.Machine

open Sys2Proof.Spec

/-! ### The register map, read backwards -/

/-- A register is found at its own word of the window alone (R61). -/
theorem offset_of_regAtWord : ∀ w < 64, ∀ r ∈ regAtWord w, r.offset = 4 * w := by decide

/-- A register is found at its own offset alone (R61). -/
theorem offset_of_regAt {off : Nat} {r : Reg} (hoff : off < Config.windowBytes) (h : regAt off = some r) :
    r.offset = off := by
  unfold regAt at h
  split_ifs at h with haligned
  have hlt : off < 256 := hoff
  have hword := offset_of_regAtWord (off / 4) (by omega) r h
  omega

/-- An access that reaches a register is an aligned 32-bit access at its offset (R61, R63). -/
theorem eq_of_locate_reg {c : Config} {width : AccessWidth} {addr : Nat} {r : Reg} (h : locate c width addr = .reg r) :
    width = .bits32 ∧ addr = c.base + r.offset := by
  unfold locate at h
  split_ifs at h with hout hwidth
  split at h
  next r' hreg =>
    cases h
    have hoff := offset_of_regAt (by omega) hreg
    exact ⟨hwidth, by omega⟩
  next => cases h

/-! ### Accesses to a register -/

/-- A read outside the window stops the machine (R60; assumption 5). -/
theorem step_read_outside {s : State} {width : AccessWidth} {addr : Nat} {rest : List BusEvent}
    (hp : s.pending = .read width addr :: rest) (hl : locate s.cfg width addr = .outside) :
    step s = .fault .outsideWindow := by
  simp only [step_cons s _ rest hp, serve, hl, serveRead, finish]

/-- A refused read answers 0 and a bus error (R67). -/
theorem step_read_busError {s : State} {width : AccessWidth} {addr : Nat} {rest : List BusEvent}
    (hp : s.pending = .read width addr :: rest) (hl : locate s.cfg width addr = .busError) :
    step s = .next (served s rest (.readError 0)) := by
  simp only [step_cons s _ rest hp, serve, hl, serveRead, finish]
  rfl

/-- A read that reaches a register answers its value (R65). -/
theorem step_read_reg {s : State} {width : AccessWidth} {addr : Nat} {rest : List BusEvent} {r : Reg}
    (hp : s.pending = .read width addr :: rest) (hl : locate s.cfg width addr = .reg r) :
    step s = .next (served s rest (.readOk (readReg r s))) := by
  simp only [step_cons s _ rest hp, serve, hl, serveRead, finish]
  cases r <;> rfl

/-- The step on a 32-bit read at a register's offset (R61, R65). -/
theorem step_memRead (s : State) (r : Reg) (rest : List BusEvent) (h : s.pending = memRead s.cfg r.offset :: rest) :
    step s = .next (served s rest (.readOk (readReg r s))) :=
  step_read_reg h (locate_reg s.cfg r)

/-- The step on a 32-bit write at a register's offset (R61, R66). -/
theorem step_memWrite (s : State) (r : Reg) (v : Word) (rest : List BusEvent)
    (h : s.pending = memWrite s.cfg r.offset v :: rest) :
    step s = finish (writeReg r v { s with pending := rest }) := by
  rw [step_cons s _ rest h, memWrite, serve]
  simp only [locate_reg]
  rfl

/-- A write to CMD runs the word at once, on the state in which the access is taken and answered (R44). -/
theorem step_writesCmd {s : State} {v : Word} {rest : List BusEvent} (h : WritesCmd s v rest) :
    step s = runCommand v (served s rest .writeOk) :=
  step_memWrite s .cmd v rest h

/-! ### What a step can do -/

/-- The outcomes of a step on state `s`. -/
inductive StepEffect (s : State) : State → Prop
  /-- R220: nothing is pending. -/
  | idle (pending : s.pending = []) : StepEffect s s
  /-- R65, R67. -/
  | read (width : AccessWidth) (addr : Nat) (rest : List BusEvent) (r : BusResponse)
      (pending : s.pending = .read width addr :: rest) : StepEffect s (served s rest r)
  /-- R66, R67: a write that runs no command reaches at most the input registers. -/
  | write (width : AccessWidth) (addr : Nat) (v : Word) (rest : List BusEvent) (r : BusResponse)
      (key : Vector Word 8) (nonceIn ctrIn : Vector Word 2) (din : Words16)
      (pending : s.pending = .write width addr v :: rest) :
      StepEffect s { served s rest r with key := key, nonceIn := nonceIn, ctrIn := ctrIn, din := din }
  /-- R94: the word written to CMD is illegal. -/
  | illegal (v : Word) (rest : List BusEvent) (e : DecodeError) (writes : WritesCmd s v rest) (decoded : decode v = .error e) :
      StepEffect s (raise .illegalCommand (served s rest .writeOk))
  /-- R94: the word written to CMD decodes. -/
  | command (v : Word) (rest : List BusEvent) (i : Instr) {t : State} (writes : WritesCmd s v rest)
      (decoded : decode v = .ok i) (effect : CommandEffect (served s rest .writeOk) i t) : StepEffect s t
  /-- R220. -/
  | reset (rest : List BusEvent) (pending : s.pending = .reset :: rest) :
      StepEffect s (resetEngine { s with pending := rest })

/-- A step on a word written to CMD raises ILLEGAL_COMMAND or runs the decoded command. -/
theorem effect_of_runCommand {s t : State} {v : Word} {rest : List BusEvent} (hw : WritesCmd s v rest)
    (h : runCommand v (served s rest .writeOk) = .next t) : StepEffect s t := by
  unfold runCommand at h
  split at h
  next i hd => exact .command v rest i hw hd (effect_of_exec h)
  next e hd =>
    cases h
    exact .illegal v rest e hw hd

/-- A step on a read answers the read and changes no engine state (R65, R67). -/
theorem effect_of_read {s t : State} {width : AccessWidth} {addr : Nat} {rest : List BusEvent}
    (hp : s.pending = .read width addr :: rest) (h : step s = .next t) : StepEffect s t := by
  cases hl : locate s.cfg width addr with
  | outside => cases (step_read_outside hp hl).symm.trans h
  | busError =>
    cases (step_read_busError hp hl).symm.trans h
    exact .read width addr rest _ hp
  | reg r =>
    cases (step_read_reg hp hl).symm.trans h
    exact .read width addr rest _ hp

/-- A step on a write stores at most one word in an input register, or runs a command (R66, R67). -/
theorem effect_of_write {s t : State} {width : AccessWidth} {addr : Nat} {v : Word} {rest : List BusEvent}
    (hp : s.pending = .write width addr v :: rest) (h : step s = .next t) : StepEffect s t := by
  rw [step_cons s _ rest hp, serve] at h
  cases hl : locate s.cfg width addr with
  | outside => simp [hl, serveWrite, finish] at h
  | busError =>
    simp only [hl, serveWrite, finish] at h
    cases h
    exact .write width addr v rest .writeError _ _ _ _ hp
  | reg r =>
    simp only [hl, serveWrite] at h
    cases r with
    | cmd =>
      obtain ⟨rfl, rfl⟩ := eq_of_locate_reg hl
      exact effect_of_runCommand hp h
    | key i => cases h; exact .write width addr v rest .writeOk _ _ _ _ hp
    | nonce i => cases h; exact .write width addr v rest .writeOk _ _ _ _ hp
    | ctrin i => cases h; exact .write width addr v rest .writeOk _ _ _ _ hp
    | din i => cases h; exact .write width addr v rest .writeOk _ _ _ _ hp
    | _ => cases h; exact .write width addr v rest .writeError _ _ _ _ hp

/-- What a step answers is one of its outcomes. -/
theorem effect_of_step {s t : State} (h : step s = .next t) : StepEffect s t := by
  cases hp : s.pending with
  | nil =>
    rw [step_nil s hp] at h
    cases h
    exact .idle hp
  | cons e rest =>
    cases e with
    | read width addr => exact effect_of_read hp h
    | write width addr v => exact effect_of_write hp h
    | reset =>
      rw [step_cons s _ rest hp] at h
      cases h
      exact .reset rest hp

end Sys2Proof.Machine
end

section
/-! The invariant of R54 holds after reset and is kept by every step (spec/10_state.md R30, R54). -/

namespace Sys2Proof.Machine

open Sys2Proof.Spec

/-! ### Contexts that differ in the counter words alone -/

theorem SameButCounter.trans {mode : CarryMode} {u v w : Words16} (huv : SameButCounter mode u v)
    (hvw : SameButCounter mode v w) : SameButCounter mode u w := by
  obtain ⟨hlow, hnonce⟩ := huv
  obtain ⟨hlow', hnonce'⟩ := hvw
  refine ⟨fun i hi => (hlow i hi).trans (hlow' i hi), fun hmode => ?_⟩
  exact ⟨(hnonce hmode).1.trans (hnonce' hmode).1, (hnonce hmode).2.trans (hnonce' hmode).2⟩

theorem SameButCounter.symm {mode : CarryMode} {v w : Words16} (h : SameButCounter mode v w) :
    SameButCounter mode w v := by
  obtain ⟨hlow, hnonce⟩ := h
  exact ⟨fun i hi => (hlow i hi).symm, fun hmode => ⟨(hnonce hmode).1.symm, (hnonce hmode).2.symm⟩⟩

/-- Words 0 to 11 of two contexts that differ in the counter words alone. -/
theorem SameButCounter.word_eq {mode : CarryMode} {v w : Words16} (h : SameButCounter mode v w) (i : Nat) (hi : i < 12) :
    v[i] = w[i] :=
  h.1 ⟨i, by omega⟩ hi

theorem SameButCounter.hasConstants_iff {mode : CarryMode} {v w : Words16} (h : SameButCounter mode v w)
    (consts : Vector Word 4) : HasConstants v consts ↔ HasConstants w consts := by
  simp only [HasConstants, h.word_eq 0 (by decide), h.word_eq 1 (by decide), h.word_eq 2 (by decide),
    h.word_eq 3 (by decide)]

/-! ### The invariant -/

/-- The one argument of every step but SETUP and reset: the context changes in the counter words alone, no READY appears, and
what is buffered is a part of the old buffer or of the block of the old context. -/
theorem State.Inv.of_sameButCounter {s t : State} (h : s.Inv) (hcfg : t.cfg = s.cfg)
    (hctx : SameButCounter s.cfg.carryMode t.s s.s) (hready : t.ready = true → s.ready = true) (havail : t.avail ≤ 63)
    (hbuf : 0 < t.avail → t.ready = true ∧ (t.ks = s.ks ∧ 0 < s.avail ∨ t.ks = block s.s))
    (herr : t.lastErr ≤ 4) (hstick : t.lastErr ≠ 0 → t.errSticky = true) : t.Inv where
  availLe := havail
  constants hr := by
    simpa only [hctx.hasConstants_iff] using h.constants (hready hr)
  replicated hr hc := by
    have hrep := h.replicated (hready hr) ((hctx.hasConstants_iff _).mp hc)
    simpa only [hctx.word_eq 4 (by decide), hctx.word_eq 5 (by decide), hctx.word_eq 6 (by decide),
      hctx.word_eq 7 (by decide), hctx.word_eq 8 (by decide), hctx.word_eq 9 (by decide), hctx.word_eq 10 (by decide),
      hctx.word_eq 11 (by decide)] using hrep
  availReady hpos := (hbuf hpos).1
  buffered hpos := by
    rw [hcfg]
    obtain ⟨-, ⟨hks, hold⟩ | hks⟩ := hbuf hpos
    · obtain ⟨w, hw, hblock⟩ := h.buffered hold
      exact ⟨w, hw.trans hctx.symm, hks.trans hblock⟩
    · exact ⟨s.s, hctx.symm, hks⟩
  lastErrLe := herr
  errorSticks := hstick

/-- The invariant says nothing of the input registers, DOUT and the bus lists. -/
theorem State.Inv.of_context_eq {s t : State} (h : s.Inv) (hcfg : t.cfg = s.cfg) (hs : t.s = s.s) (hks : t.ks = s.ks)
    (havail : t.avail = s.avail) (hready : t.ready = s.ready) (herr : t.lastErr ≤ 4)
    (hstick : t.lastErr ≠ 0 → t.errSticky = true) : t.Inv := by
  refine h.of_sameButCounter hcfg (hs ▸ sameButCounter_refl _ _) (fun hr => hready ▸ hr) (havail ▸ h.availLe) ?_ herr hstick
  intro hpos
  rw [havail] at hpos
  exact ⟨hready ▸ h.availReady hpos, .inl ⟨hks, hpos⟩⟩

/-- A freshly installed context has its constants; with the 16-byte ones its key words must be replicated (R54 b). -/
theorem inv_installContext (s : State) {consts k0 k1 : Vector Word 4} (nonce : Vector Word 2)
    (hconsts : consts = constants32 ∨ consts = constants16 ∧ k0 = k1) :
    (installContext (contextWords consts k0 k1 nonce) s).Inv where
  availLe := Nat.zero_le _
  constants _ := by
    obtain rfl | ⟨rfl, -⟩ := hconsts
    · exact .inl ⟨rfl, rfl, rfl, rfl⟩
    · exact .inr ⟨rfl, rfl, rfl, rfl⟩
  replicated _ hc := by
    obtain rfl | ⟨-, rfl⟩ := hconsts
    · exact absurd hc.2.1 (by simp [contextWords, constants32, constants16])
    · exact ⟨rfl, rfl, rfl, rfl⟩
  availReady hpos := absurd hpos (Nat.lt_irrefl 0)
  buffered hpos := absurd hpos (Nat.lt_irrefl 0)
  lastErrLe := by simp
  errorSticks herr := absurd rfl herr

/-- Settles O58: no context is READY after reset, nothing is buffered and no error is recorded. -/
theorem invHoldsAtReset : Obligations.InvHoldsAtReset := by
  intro c events
  exact {
    availLe := Nat.zero_le _
    constants := fun hr => by cases hr
    replicated := fun hr => by cases hr
    availReady := fun hpos => absurd hpos (Nat.lt_irrefl 0)
    buffered := fun hpos => absurd hpos (Nat.lt_irrefl 0)
    lastErrLe := by simp
    errorSticks := fun herr => absurd rfl herr }

/-- The invariant is kept by every command: SETUP installs a context, and every other outcome changes the counter words
alone. -/
theorem effect_keeps_inv {i : Instr} {s t : State} (h : s.Inv) (heffect : CommandEffect s i t) : t.Inv := by
  have hcode := effect_lastErr_le heffect
  have hstick := effect_error_sticks heffect
  cases heffect with
  | setup32 => exact inv_installContext s _ (.inl rfl)
  | setup16 => exact inv_installContext s _ (.inr ⟨rfl, rfl⟩)
  | setupOther =>
    exact h.of_sameButCounter rfl (sameButCounter_refl _ _) (fun hr => by simp at hr) (by simp) (fun hpos => by simp at hpos)
      hcode hstick
  | setctr hr =>
    exact h.of_sameButCounter rfl (sameButCounter_setCounter _ _ _ _) id (by simp) (fun hpos => by simp at hpos) hcode hstick
  | genblk hr =>
    exact h.of_sameButCounter rfl (sameButCounter_advance _ _) id h.availLe (fun hpos => ⟨hr, .inl ⟨rfl, hpos⟩⟩) hcode hstick
  | processTail n hr =>
    have hless : s.avail - n ≤ s.avail := Nat.sub_le _ _
    exact h.of_sameButCounter rfl (sameButCounter_refl _ _) id (hless.trans h.availLe)
      (fun hleft => ⟨hr, .inl ⟨rfl, hleft.trans_le hless⟩⟩) hcode hstick
  | processFresh n hr hle hfresh =>
    have hless : 64 - (n - s.avail) ≤ 63 := by omega
    exact h.of_sameButCounter rfl (sameButCounter_advance _ _) id hless (fun _ => ⟨hr, .inr rfl⟩) hcode hstick
  | _ => exact h.of_context_eq (by simp) (by simp) (by simp) (by simp) (by simp) hcode hstick

/-- Settles O59: reads and register writes leave the context, a command keeps the invariant (`effect_keeps_inv`), and a reset
restores it. -/
theorem stepKeepsInv : Obligations.StepKeepsInv := by
  intro s t h hstep
  cases effect_of_step hstep with
  | idle => exact h
  | read width addr rest r => exact h.of_context_eq rfl rfl rfl rfl rfl h.lastErrLe h.errorSticks
  | write => exact h.of_context_eq rfl rfl rfl rfl rfl h.lastErrLe h.errorSticks
  | illegal => exact h.of_context_eq rfl rfl rfl rfl rfl (by simp [CmdError.code]) (fun _ => rfl)
  | command v rest i _ _ heffect =>
    have hserved : (served s rest .writeOk).Inv := h.of_context_eq rfl rfl rfl rfl rfl h.lastErrLe h.errorSticks
    exact effect_keeps_inv hserved heffect
  | reset rest =>
    exact (invHoldsAtReset s.cfg rest).of_context_eq rfl rfl rfl rfl rfl (by simp) (fun herr => absurd rfl herr)

end Sys2Proof.Machine
end

section
/-! The decoder and the encoder undo each other (spec/30_encoding.md R91, R93, R94), and the decoder is the pseudocode's. -/

namespace Sys2Proof.Machine

open Sys2Proof.Spec

/-! ### Round trips -/

/-- The opcode map finds a command at its own OP and ARG (R93). -/
theorem decodeOp_op_arg (i : Instr) : decodeOp i.op i.arg = .ok i := by
  cases i <;> simp [decodeOp, Instr.op, Instr.arg, whenArgZero]

/-- A command whose ARG must be 0 is found with that ARG alone. -/
theorem whenArgZero_eq_ok_iff (arg : Nat) (i j : Instr) : whenArgZero arg j = .ok i ↔ arg = 0 ∧ j = i := by
  unfold whenArgZero
  split_ifs with harg <;> simp [harg]

/-- The opcode map finds a command nowhere else (R93). -/
theorem op_arg_of_decodeOp {op : BitVec 4} {arg : Nat} {i : Instr} (h : decodeOp op arg = .ok i) :
    op = i.op ∧ arg = i.arg := by
  unfold decodeOp at h
  split_ifs at h with hop hop hop hop hop hop
  all_goals
    simp only [whenArgZero_eq_ok_iff, Except.ok.injEq] at h
    obtain ⟨rfl, rfl⟩ := h
    exact ⟨hop, rfl⟩

/-- Decoding the word of a well-formed command gives the command back. -/
theorem decode_encode {i : Instr} (hwf : i.wellFormed = true) : decode (encode i) = .ok i := by
  obtain ⟨hop, hrsv0, harg, hrsv1⟩ := Laws.EncodedFields.fields_of_encode i hwf
  rw [decode, hrsv1, hrsv0, hop, harg, if_neg (by simp), if_neg (by simp), decodeOp_op_arg]

/-- A word is its four fields put together (R91). -/
theorem fields_append (v : Word) :
    (rsv1Field v ++ (argField v ++ (rsv0Field v ++ opField v : BitVec 8) : BitVec 16) : BitVec 32) = v := by
  have hlow : (rsv0Field v ++ opField v : BitVec 8) = v.extractLsb' 0 8 :=
    BitVec.extractLsb'_append_extractLsb'_eq_extractLsb' rfl
  have hmid : (argField v ++ v.extractLsb' 0 8 : BitVec 16) = v.extractLsb' 0 16 :=
    BitVec.extractLsb'_append_extractLsb'_eq_extractLsb' rfl
  have hall : (rsv1Field v ++ v.extractLsb' 0 16 : BitVec 32) = v.extractLsb' 0 32 :=
    BitVec.extractLsb'_append_extractLsb'_eq_extractLsb' rfl
  rw [hlow, hmid, hall, BitVec.extractLsb'_eq_self]

/-- A word that decodes is the word of its command, whose argument fits the ARG field. -/
theorem encode_of_decode {v : Word} {i : Instr} (h : decode v = .ok i) : encode i = v ∧ i.wellFormed = true := by
  unfold decode at h
  split_ifs at h with hrsv1 hrsv0
  obtain ⟨hop, harg⟩ := op_arg_of_decodeOp h
  constructor
  · have hfields := fields_append v
    rw [not_not.mp hrsv1, not_not.mp hrsv0, hop] at hfields
    rw [encode, ← harg, BitVec.ofNat_toNat, BitVec.setWidth_eq]
    exact hfields
  · have hlt := (argField v).isLt
    simpa [Instr.wellFormed, ← harg] using hlt

/-! ### The decoder of R94 -/

/-- A command whose ARG must be 0, as the pseudocode writes it. -/
theorem toOption_whenArgZero (arg : Nat) (i : Instr) :
    (whenArgZero arg i).toOption = if arg = 0 then some i else none := by
  unfold whenArgZero
  split_ifs <;> rfl

/-- The opcode map is the case list of the pseudocode. -/
theorem opR94_eq_decodeOp (op : BitVec 4) (arg : Nat) : opR94 op.toNat arg = (decodeOp op arg).toOption := by
  unfold decodeOp
  split_ifs with h0 h1 h2 h3 h4 h5
  · exact h0 ▸ (toOption_whenArgZero arg .nop).symm
  · exact h1 ▸ rfl
  · exact h2 ▸ (toOption_whenArgZero arg .setctr).symm
  · exact h3 ▸ (toOption_whenArgZero arg .genblk).symm
  · exact h4 ▸ rfl
  · exact h5 ▸ (toOption_whenArgZero arg .clrerr).symm
  · unfold opR94
    split <;> simp_all [← BitVec.toNat_inj, Except.toOption]

/-- The decoder gives what the pseudocode of R94 gives. -/
theorem decodeR94_eq_decode (v : Word) : decodeR94 v = (decode v).toOption := by
  have hrsv1 : rsv1Field v = 0 ↔ v.toNat / 2 ^ 16 = 0 := by
    have hlt := v.isLt
    rw [← BitVec.toNat_inj, rsv1Field, BitVec.extractLsb'_toNat, Nat.shiftRight_eq_div_pow]
    simp
    omega
  have hrsv0 : rsv0Field v = 0 ↔ v.toNat / 2 ^ 4 % 2 ^ 4 = 0 := by
    rw [← BitVec.toNat_inj, rsv0Field, BitVec.extractLsb'_toNat, Nat.shiftRight_eq_div_pow]
    simp
  have hop : (opField v).toNat = v.toNat % 2 ^ 4 := by
    rw [opField, BitVec.extractLsb'_toNat, Nat.shiftRight_zero]
  have harg : (argField v).toNat = v.toNat / 2 ^ 8 % 2 ^ 8 := by
    rw [argField, BitVec.extractLsb'_toNat, Nat.shiftRight_eq_div_pow]
  rw [decodeR94, ← hop, ← harg, opR94_eq_decodeOp, decode]
  by_cases h1 : rsv1Field v = 0
  · by_cases h0 : rsv0Field v = 0
    · rw [if_neg (not_or.mpr ⟨not_not.mpr (hrsv1.mp h1), not_not.mpr (hrsv0.mp h0)⟩), if_neg (not_not.mpr h1),
        if_neg (not_not.mpr h0)]
    · rw [if_pos (.inr (mt hrsv0.mpr h0)), if_neg (not_not.mpr h1), if_pos h0]
      rfl
  · rw [if_pos (.inl (mt hrsv1.mpr h1)), if_pos h1]
    rfl

end Sys2Proof.Machine
end

section
/-! The words STATUS and CONFIG bit by bit (spec/10_state.md R42, R43), and the accesses to the registers of offsets 0x000 to
0x008 (R41, R43, R44). -/

namespace Sys2Proof.Machine

open Sys2Proof.Spec

/-! ### STATUS -/

/-- Two fields put together, as a number. -/
theorem toNat_append_eq_add {m n : Nat} (x : BitVec m) (y : BitVec n) : (x ++ y).toNat = x.toNat * 2 ^ n + y.toNat := by
  rw [BitVec.toNat_append, ← Nat.shiftLeft_add_eq_or_of_lt y.isLt, Nat.shiftLeft_eq]

/-- STATUS as a number (R43). -/
theorem statusWord_toNat (s : State) :
    (statusWord s).toNat = s.avail % 128 * 256 + s.lastErr.toNat * 16 + s.errSticky.toNat * 2 + s.ready.toNat := by
  have herr := s.lastErr.isLt
  have hsticky := s.errSticky.toNat_lt
  have hready := s.ready.toNat_lt
  have hflags : ∀ x y : BitVec 1, (x ++ y : BitVec 2).toNat = x.toNat * 2 + y.toNat := toNat_append_eq_add
  have hlow : ∀ y : BitVec 2, (0#2 ++ y : BitVec 4).toNat = 0 * 4 + y.toNat := toNat_append_eq_add _
  have hcode : ∀ y : BitVec 4, (s.lastErr ++ y : BitVec 8).toNat = s.lastErr.toNat * 16 + y.toNat := toNat_append_eq_add _
  have hall : ∀ (x : BitVec 7) (y : BitVec 8), (x ++ y : BitVec 15).toNat = x.toNat * 256 + y.toNat := toNat_append_eq_add
  rw [statusWord, BitVec.toNat_setWidth, hall, hcode, hlow, hflags, BitVec.toNat_ofNat, BitVec.toNat_ofBool,
    BitVec.toNat_ofBool]
  omega

/-- READY is bit 0 of STATUS (R43). -/
theorem status_ready (s : State) : (readReg .status s).getLsbD 0 = s.ready := by
  have hsticky := s.errSticky.toNat_lt
  rw [readReg, ← BitVec.testBit_toNat, Nat.testBit_eq_decide_div_mod_eq, statusWord_toNat]
  cases s.ready <;> simp <;> omega

/-- ERR_STICKY is bit 1 of STATUS (R43). -/
theorem status_errSticky (s : State) : (readReg .status s).getLsbD 1 = s.errSticky := by
  have hready := s.ready.toNat_lt
  rw [readReg, ← BitVec.testBit_toNat, Nat.testBit_eq_decide_div_mod_eq, statusWord_toNat]
  cases s.errSticky <;> simp <;> omega

/-- A field of STATUS as a number. -/
theorem status_field_toNat (s : State) (lo len : Nat) :
    ((readReg .status s).extractLsb' lo len).toNat =
      (s.avail % 128 * 256 + s.lastErr.toNat * 16 + s.errSticky.toNat * 2 + s.ready.toNat) / 2 ^ lo % 2 ^ len := by
  rw [BitVec.extractLsb'_toNat, Nat.shiftRight_eq_div_pow, readReg, statusWord_toNat]

/-- Bits [3:2] of STATUS are 0 (R43). -/
theorem status_low_reserved (s : State) : (readReg .status s).extractLsb' 2 2 = 0 := by
  have hsticky := s.errSticky.toNat_lt
  have hready := s.ready.toNat_lt
  rw [← BitVec.toNat_inj, status_field_toNat]
  simp
  omega

/-- LAST_ERR is bits [7:4] of STATUS (R43). -/
theorem status_lastErr (s : State) : (readReg .status s).extractLsb' 4 4 = s.lastErr := by
  have herr := s.lastErr.isLt
  have hsticky := s.errSticky.toNat_lt
  have hready := s.ready.toNat_lt
  rw [← BitVec.toNat_inj, status_field_toNat]
  omega

/-- AVAIL's low 7 bits are bits [14:8] of STATUS (R43). -/
theorem status_avail (s : State) : ((readReg .status s).extractLsb' 8 7).toNat = s.avail % 128 := by
  have herr := s.lastErr.isLt
  have hsticky := s.errSticky.toNat_lt
  have hready := s.ready.toNat_lt
  rw [status_field_toNat]
  omega

/-- Bits [31:15] of STATUS are 0 (R43). -/
theorem status_high_reserved (s : State) : (readReg .status s).extractLsb' 15 17 = 0 := by
  have herr := s.lastErr.isLt
  have hsticky := s.errSticky.toNat_lt
  have hready := s.ready.toNat_lt
  rw [← BitVec.toNat_inj, status_field_toNat]
  simp
  omega

/-- STATUS is 0 after reset (R43, R52). -/
theorem status_resetWith (c : Config) : readReg .status (State.resetWith c) = 0 := by
  rw [readReg, ← BitVec.toNat_inj, statusWord_toNat]
  simp

/-- Settles O42: the fields of STATUS as lemmas, and a write to a read-only register (`step_memWrite`). -/
theorem statusLayout : Obligations.StatusLayout := by
  refine ⟨fun s => ?_, status_resetWith, fun s v rest h => step_memWrite s .status v rest h⟩
  exact ⟨status_ready s, status_errSticky s, status_low_reserved s, status_lastErr s, status_avail s,
    status_high_reserved s⟩

/-! ### ID and CONFIG -/

/-- CONFIG with the default CARRY_MODE (R42). -/
theorem configWord_c64 {c : Config} (h : c.carryMode = .c64) : configWord c = 0x00144000 := by
  rw [configWord, h]
  rfl

/-- CONFIG with CARRY_MODE 128 (R42). -/
theorem configWord_c128 {c : Config} (h : c.carryMode = .c128) : configWord c = 0x00144001 := by
  rw [configWord, h]
  rfl

/-- Settles O43: CONFIG is one of two words (`configWord_c64`, `configWord_c128`), whose fields are computed. -/
theorem idAndConfigAreConstant : Obligations.IdAndConfigAreConstant := by
  refine ⟨fun s => rfl, fun s v rest h => step_memWrite s .id v rest h, fun s => ?_, fun s h => configWord_c64 h⟩
  rw [readReg]
  cases hmode : s.cfg.carryMode with
  | c64 =>
    rw [configWord_c64 hmode]
    decide
  | c128 =>
    rw [configWord_c128 hmode]
    decide

/-! ### CMD -/

/-- Settles O44: a write to CMD runs the word (`step_writesCmd`), and the decoder undoes the encoder (`decode_encode`). -/
theorem cmdWriteRunsDecodedCommand : Obligations.CmdWriteRunsDecodedCommand := by
  have hruns : ∀ (s : State) (v : Word) (i : Instr) (rest : List BusEvent), WritesCmd s v rest → decode v = .ok i →
      step s = exec i (served s rest .writeOk) := by
    intro s v i rest hw hd
    rw [step_writesCmd hw, runCommand, hd]
  exact ⟨hruns, fun s i rest hwf hw => hruns s _ i rest hw (decode_encode hwf), fun s rest h => step_memRead s .cmd rest h⟩

end Sys2Proof.Machine
end

section
/-! READY, the error fields and the reset values over every step of the machine (spec/10_state.md R32, R33, R52), and what a
reachable state shows in STATUS (R30). -/

namespace Sys2Proof.Machine

open Sys2Proof.Spec

/-- A command leaves the code R201 gives its word. -/
theorem effect_lastErr_eq_code {i : Instr} {s t : State} {v : Word} (hv : decodeR94 v = some i)
    (h : CommandEffect s i t) : t.lastErr = codeR201 s.ready v := by
  rw [codeR201, hv]
  cases h with
  | nop => rfl
  | clrerr => rfl
  | setup32 => rfl
  | setup16 => rfl
  | setupOther n h16 h32 => simp [h16, h32, CmdError.code]
  | setctr hr => simp [hr]
  | genblk hr => simp [hr]
  | processEmpty hr => simp [hr]
  | processTail n hr _ hle => simp [hr, Nat.not_lt.mpr hle]
  | processFresh n hr hle => simp [hr, Nat.not_lt.mpr hle]
  | processTooLong n hlong => simp [hlong, CmdError.code]
  | notReady hr hneeds =>
    obtain rfl | rfl | ⟨n, hle, rfl⟩ := hneeds
    · simp [hr, CmdError.code]
    · simp [hr, CmdError.code]
    · simp [hr, Nat.not_lt.mpr hle, CmdError.code]

/-- A write to CMD is served as an illegal word or as the command it decodes to. -/
theorem writesCmd_effect {s t : State} {v : Word} {rest : List BusEvent} (hw : WritesCmd s v rest)
    (h : step s = .next t) :
    (decodeR94 v = none ∧ t = raise .illegalCommand (served s rest .writeOk)) ∨
      ∃ i, decodeR94 v = some i ∧ CommandEffect (served s rest .writeOk) i t := by
  rw [step_writesCmd hw, runCommand] at h
  rw [decodeR94_eq_decode]
  split at h
  next i hd => exact .inr ⟨i, by rw [hd]; rfl, effect_of_exec h⟩
  next e hd =>
    cases h
    exact .inl ⟨by rw [hd]; rfl, rfl⟩

/-- The code a write to CMD leaves, and that an error sets ERR_STICKY (R33, R192, R201). -/
theorem writesCmd_records {s t : State} {v : Word} {rest : List BusEvent} (hw : WritesCmd s v rest)
    (h : step s = .next t) : t.lastErr = codeR201 s.ready v ∧ (codeR201 s.ready v ≠ 0 → t.errSticky = true) := by
  obtain ⟨hv, rfl⟩ | ⟨i, hv, heffect⟩ := writesCmd_effect hw h
  · rw [codeR201, hv]
    exact ⟨rfl, fun _ => rfl⟩
  · have hcode : t.lastErr = codeR201 s.ready v := effect_lastErr_eq_code (s := served s rest .writeOk) hv heffect
    exact ⟨hcode, fun hne => effect_error_sticks heffect (hcode ▸ hne)⟩

/-- A step that clears ERR_STICKY serves a reset or the word of CLRERR (R33). -/
theorem step_clears_sticky {s t : State} (h : step s = .next t) (hs : s.errSticky = true) (ht : t.errSticky = false) :
    ∃ rest, s.pending = .reset :: rest ∨ WritesCmd s 0x00000005 rest := by
  cases effect_of_step h with
  | command v rest i hw hd heffect =>
    obtain rfl := effect_clears_sticky heffect hs ht
    obtain rfl : v = 0x00000005 := (encode_of_decode hd).1.symm
    exact ⟨rest, .inr hw⟩
  | reset rest hp => exact ⟨rest, .inl hp⟩
  | illegal => simp at ht
  | _ => cases hs.symm.trans ht

/-- Settles O39, by the code each outcome leaves (`writesCmd_records`) and the one that clears the flag
(`step_clears_sticky`). -/
theorem stickyRecordsFailures : Obligations.StickyRecordsFailures :=
  ⟨fun _ => ⟨rfl, rfl⟩, fun _ _ _ _ hw h => writesCmd_records hw h, fun _ _ h hs ht => step_clears_sticky h hs ht,
    fun s => ⟨status_lastErr s, status_errSticky s⟩⟩

/-- A step that changes READY serves a reset or a SETUP word (R32). -/
theorem step_changes_ready {s t : State} (h : step s = .next t) (hne : s.ready ≠ t.ready) :
    ∃ rest, s.pending = .reset :: rest ∨ ∃ n, n < 256 ∧ WritesCmd s (encode (.setup n)) rest := by
  cases effect_of_step h with
  | command v rest i hw hd heffect =>
    obtain ⟨hword, hwf⟩ := encode_of_decode hd
    by_cases hsetup : ∃ n, i = .setup n
    · obtain ⟨n, rfl⟩ := hsetup
      exact ⟨rest, .inr ⟨n, of_decide_eq_true hwf, hword ▸ hw⟩⟩
    · have hready : t.ready = s.ready :=
        effect_keeps_ready (s := served s rest .writeOk) (not_exists.mp hsetup) heffect
      exact absurd hready.symm hne
  | reset rest hp => exact ⟨rest, .inl hp⟩
  | illegal => simp [served] at hne
  | _ => exact absurd rfl hne

/-- Settles O41, by what each outcome writes to READY. -/
theorem readyWriters : Obligations.ReadyWriters :=
  ⟨fun _ => rfl, fun _ _ _ h => setup_ready_iff (effect_of_exec h),
    fun _ _ _ hsetup h => effect_keeps_ready hsetup (effect_of_exec h), fun _ _ h hne => step_changes_ready h hne,
    fun _ _ _ hr hi h => effect_notReady_fails hr hi (effect_of_exec h), status_ready⟩

/-- Settles O7: the table of R52 read off, and the commands on a context that is not READY
(`effect_notReady_keeps_context`). -/
theorem resetValues : Obligations.ResetValues := by
  intro c
  have hzeros : ∀ i : Fin 16, zeros16[i] = 0 := by decide
  have hkey : ∀ i : Fin 8, (#v[0, 0, 0, 0, 0, 0, 0, 0] : Vector Word 8)[i] = 0 := by decide
  have hpair : ∀ i : Fin 2, (#v[0, 0] : Vector Word 2)[i] = 0 := by decide
  refine ⟨State.resetWith c, rfl, rfl, fun i => ⟨hzeros i, hzeros i, hzeros i, hzeros i⟩, hkey,
    fun i => ⟨hpair i, hpair i⟩, rfl, rfl, rfl, rfl, rfl, rfl, status_resetWith c,
    fun i => hzeros ⟨12 + i.val, by omega⟩, ?_⟩
  intro i u t hr hsetup h
  have heffect := effect_of_exec h
  obtain ⟨hs, hks, havail⟩ := effect_notReady_keeps_context hsetup hr heffect
  exact ⟨hs, hks, havail, (effect_keeps_ready hsetup heffect).trans hr⟩

/-- The invariant holds in every state an engine reaches. -/
theorem State.Reachable.inv {s : State} (h : s.Reachable) : s.Inv := by
  obtain ⟨c, events, k, hrun⟩ := h
  exact run_keeps State.Inv stepKeepsInv k _ s (invHoldsAtReset c events) hrun

/-- Settles O60, from the invariant of the reachable states. -/
theorem reachableAvailBelow64 : Obligations.ReachableAvailBelow64 := by
  intro s h
  have hle := h.inv.availLe
  refine ⟨hle, h.inv.availReady, status_high_reserved s, ?_⟩
  rw [status_avail, Nat.mod_eq_of_lt (by omega)]

end Sys2Proof.Machine
end

section
/-! Reads show nothing of KEY, s[0] to s[11] and the keystream buffer (spec/60_exceptions.md R205). -/

namespace Sys2Proof.Machine

open Sys2Proof.Spec

/-- Every register reads the same in two states that agree in what has a read path. -/
theorem readReg_eq_of_samePublic {s s' : State} (h : SamePublic s s') (r : Reg) : readReg r s = readReg r s' := by
  obtain ⟨hcfg, hs, havail, hready, hlast, hsticky, hnonce, hctr, hdin, hdout, -, -⟩ := h
  cases r with
  | id => rfl
  | cmd => rfl
  | key i => rfl
  | status => simp only [readReg, statusWord, havail, hready, hlast, hsticky]
  | config => simp only [readReg, hcfg]
  | nonce i => simp only [readReg, hnonce]
  | ctrin i => simp only [readReg, hctr]
  | state i => exact hs ⟨12 + i.val, by omega⟩ (Nat.le_add_right 12 i.val)
  | din i => simp only [readReg, hdin]
  | dout i => simp only [readReg, hdout]

/-- The same answer keeps two states equal in what has a read path. -/
theorem samePublic_served {s s' : State} (h : SamePublic s s') (rest : List BusEvent) (r : BusResponse) :
    SamePublic (served s rest r) (served s' rest r) := by
  obtain ⟨hcfg, hs, havail, hready, hlast, hsticky, hnonce, hctr, hdin, hdout, -, hresp⟩ := h
  exact ⟨hcfg, hs, havail, hready, hlast, hsticky, hnonce, hctr, hdin, hdout, rfl, congrArg (r :: ·) hresp⟩

/-- Settles O49: the two states answer the read alike, since it goes to the same target and that target reads the same. -/
theorem keyMaterialHasNoReadPath : Obligations.KeyMaterialHasNoReadPath := by
  intro s s' t width addr rest hpub hp hstep
  have hreg := readReg_eq_of_samePublic hpub
  have hserved := samePublic_served hpub rest
  obtain ⟨hcfg, -, -, -, -, -, -, -, -, -, hpend, hresp⟩ := hpub
  have hp' : s'.pending = .read width addr :: rest := hpend ▸ hp
  cases hl : locate s.cfg width addr with
  | outside => cases (step_read_outside hp hl).symm.trans hstep
  | busError =>
    cases (step_read_busError hp hl).symm.trans hstep
    exact ⟨_, step_read_busError hp' (hcfg ▸ hl), congrArg (_ :: ·) hresp.symm, hserved _⟩
  | reg r =>
    cases (step_read_reg hp hl).symm.trans hstep
    have hstep' := step_read_reg hp' (hcfg ▸ hl)
    rw [← hreg r] at hstep'
    exact ⟨_, hstep', congrArg (_ :: ·) hresp.symm, hserved _⟩

end Sys2Proof.Machine
end

section
/-! PROCESS as a byte stream (spec/42_stream.md R161 to R172): its output depends on the input bytes alone, and it is a byte
stream cipher whose position is (s, ks, AVAIL), so that the bounds between chunks do not show. -/

namespace Sys2Proof.Machine

open Sys2Proof.Spec

/-! ### The bytes of DIN that are read -/

/-- The output of PROCESS n as input bytes and keystream bytes, byte by byte (R163, R164). -/
theorem stream_bytes_zipWith (n : Nat) (s : State) :
    (stream n s).1 = List.zipWith (· ^^^ ·) (firstBytes n s.din) ((List.range n).map (keystreamByte s)) := by
  rw [stream_bytes, firstBytes, List.zipWith_map, List.zipWith_self]

/-- Another DIN with the same first n bytes gives the same output (R172). -/
theorem stream_bytes_of_firstBytes_eq {n : Nat} {s : State} {d : Words16} (h : firstBytes n d = firstBytes n s.din) :
    (stream n { s with din := d }).1 = (stream n s).1 := by
  rw [stream_bytes_zipWith, stream_bytes_zipWith, h]
  rfl

/-- Settles O36: each outcome of PROCESS comes about in the same way with the other DIN, whose output bytes are the same
(`stream_bytes_of_firstBytes_eq`). -/
theorem unreadDinBytesAreIgnored : Obligations.UnreadDinBytesAreIgnored := by
  intro s t n d hn hd h
  obtain ⟨-, -, -, hdin, -⟩ := commandsKeepInputRegisters _ s t h
  refine ⟨hdin, ?_⟩
  have hbytes := stream_bytes_of_firstBytes_eq hd
  cases effect_of_exec h with
  | processEmpty hr => exact exec_of_effect (.processEmpty (s := { s with din := d }) hr)
  | processTail _ hr hpos hle htail =>
    rw [← hbytes]
    exact exec_of_effect (.processTail (s := { s with din := d }) n hr hpos hle htail)
  | processFresh _ hr hle hfresh =>
    rw [← hbytes]
    exact exec_of_effect (.processFresh (s := { s with din := d }) n hr hle hfresh)
  | processTooLong _ hlong => omega
  | notReady hr hneeds => exact exec_of_effect (.notReady (s := { s with din := d }) hr hneeds)

/-! ### The position in the keystream -/

/-- The part of the state a stream of bytes reads and writes (R27, R28): the context, the buffer and how much of it is left. -/
structure StreamPos where
  s : Words16
  ks : Words16
  avail : Nat

/-- The position an engine is at. -/
def State.streamPos (s : State) : StreamPos := ⟨s.s, s.ks, s.avail⟩

/-- The next keystream byte and the position behind it: from the buffer's tail, or from a fresh block when none is left
(R163, R164). -/
def StreamPos.next (mode : CarryMode) (p : StreamPos) : Byte × StreamPos :=
  if p.avail = 0 then (byteAt (block p.s) 0, ⟨advance mode p.s, block p.s, 63⟩)
  else (byteAt p.ks (64 - p.avail), ⟨p.s, p.ks, p.avail - 1⟩)

/-- A message enciphered one byte at a time, and the position behind it. -/
def StreamPos.encipher (mode : CarryMode) : List Byte → StreamPos → List Byte × StreamPos
  | [], p => ([], p)
  | b :: bs, p =>
    let q := p.next mode
    let r := StreamPos.encipher mode bs q.2
    ((b ^^^ q.1) :: r.1, r.2)

/-- A message in two parts is enciphered part by part. -/
theorem StreamPos.encipher_append (mode : CarryMode) (bs cs : List Byte) (p : StreamPos) :
    StreamPos.encipher mode (bs ++ cs) p =
      ((StreamPos.encipher mode bs p).1 ++ (StreamPos.encipher mode cs (StreamPos.encipher mode bs p).2).1,
        (StreamPos.encipher mode cs (StreamPos.encipher mode bs p).2).2) := by
  induction bs generalizing p with
  | nil => rfl
  | cons b bs ih => simp [StreamPos.encipher, ih]

/-- The position after the first n bytes of a PROCESS (R164, R165). -/
theorem streamPos_stream (n : Nat) (s : State) :
    (stream n s).2.streamPos =
      if s.avail < n then ⟨advance s.cfg.carryMode s.s, block s.s, 64 - (n - s.avail)⟩ else ⟨s.s, s.ks, s.avail - n⟩ := by
  rw [stream_state]
  split_ifs <;> rfl

/-- The byte behind the first n bytes of a PROCESS is its keystream byte n, and the position behind it is that after n + 1
bytes: still in the old tail, at the fresh block, or inside the fresh block. -/
theorem streamPos_stream_next {n : Nat} {s : State} (hn : n < 64) (havail : s.avail ≤ 64) :
    (stream n s).2.streamPos.next s.cfg.carryMode = (keystreamByte s n, (stream (n + 1) s).2.streamPos) := by
  rw [streamPos_stream, streamPos_stream]
  rcases Nat.lt_trichotomy n s.avail with hlt | heq | hgt
  · have hleft : s.avail - n ≠ 0 := by omega
    have hoff : 64 - (s.avail - n) = 64 - s.avail + n := by omega
    have hsub : s.avail - n - 1 = s.avail - (n + 1) := by omega
    simp [StreamPos.next, keystreamByte, hlt, Nat.not_lt.mpr hlt.le, Nat.not_lt.mpr (Nat.succ_le_of_lt hlt), hleft, hoff, hsub]
  · subst heq
    simp [StreamPos.next, keystreamByte]
  · have hleft : 64 - (n - s.avail) ≠ 0 := by omega
    have hoff : 64 - (64 - (n - s.avail)) = n - s.avail := by omega
    have hsub : 64 - (n - s.avail) - 1 = 64 - (n + 1 - s.avail) := by omega
    simp [StreamPos.next, keystreamByte, hgt, Nat.lt_succ_of_lt hgt, Nat.not_lt.mpr hgt.le, hleft, hoff, hsub]

/-- PROCESS enciphers its input bytes from the position it starts at (R163 to R165). -/
theorem encipher_firstBytes {s : State} (havail : s.avail ≤ 64) (n : Nat) (hn : n ≤ 64) :
    StreamPos.encipher s.cfg.carryMode (firstBytes n s.din) s.streamPos =
      ((stream n s).1, (stream n s).2.streamPos) := by
  induction n with
  | zero => simp [firstBytes, StreamPos.encipher, stream_bytes, stream_state]
  | succ n ih =>
    have hbytes : firstBytes (n + 1) s.din = firstBytes n s.din ++ [byteAt s.din n] := by
      simp [firstBytes, List.range_succ]
    have hout : (stream (n + 1) s).1 = (stream n s).1 ++ [byteAt s.din n ^^^ keystreamByte s n] := by
      simp [stream_bytes, List.range_succ]
    rw [hbytes, StreamPos.encipher_append, ih (by omega), hout]
    simp [StreamPos.encipher, streamPos_stream_next (show n < 64 by omega) havail]

/-! ### Chunks -/

/-- The first n bytes of DOUT after a PROCESS n are its output bytes (R167). -/
theorem firstBytes_packBytes_stream {n : Nat} (hn : n ≤ 64) (s : State) :
    firstBytes n (packBytes (stream n s).1) = (stream n s).1 := by
  rw [firstBytes, stream_bytes]
  refine List.map_congr_left fun j hj => ?_
  have hlt := List.mem_range.mp hj
  rw [← stream_bytes, byteAt_stream n s j (by omega), if_pos hlt]

/-- One chunk on a READY engine: its bytes are enciphered, and the engine can take the next chunk. -/
theorem process_enciphers {s : State} {n : Nat} (hr : s.ready = true) (havail : s.avail ≤ 64) (hn : n ≤ 64) :
    ∃ t, exec (.process n) s = .next t ∧ t.ready = true ∧ t.avail ≤ 64 ∧ t.cfg = s.cfg ∧
      StreamPos.encipher s.cfg.carryMode (firstBytes n s.din) s.streamPos = (firstBytes n t.dout, t.streamPos) := by
  by_cases hzero : n = 0
  · subst hzero
    exact ⟨_, execProcess_empty s hr, hr, havail, rfl, rfl⟩
  have hexec : exec (.process n) s = _ := execProcess_ready n s hn hzero hr
  obtain ⟨-, -, -, -, hcfg, -⟩ := commandsKeepInputRegisters _ s _ hexec
  have hready := effect_keeps_ready (fun _ => by simp) (effect_of_exec hexec)
  refine ⟨_, hexec, hready.trans hr, ?_, hcfg, ?_⟩
  · rw [stream_state]
    split_ifs
    · exact Nat.sub_le 64 _
    · exact (Nat.sub_le _ _).trans havail
  · rw [encipher_firstBytes havail n hn, succeed_dout, firstBytes_packBytes_stream hn s]
    rfl

/-- A chunked message is enciphered as one message: the output bytes and the final position depend on its bytes alone. -/
theorem feed_enciphers (cs : List Chunk) (hcs : ∀ c ∈ cs, c.1 ≤ 64) (s : State) (hr : s.ready = true)
    (havail : s.avail ≤ 64) :
    ∃ t, feed cs s = some ((StreamPos.encipher s.cfg.carryMode (message cs) s.streamPos).1, t) ∧
      t.streamPos = (StreamPos.encipher s.cfg.carryMode (message cs) s.streamPos).2 := by
  induction cs generalizing s with
  | nil => exact ⟨s, rfl, rfl⟩
  | cons c cs ih =>
    obtain ⟨hc, hrest⟩ := List.forall_mem_cons.mp hcs
    obtain ⟨t, hexec, htr, htavail, htcfg, hchunk⟩ := process_enciphers (s := { s with din := c.2 }) hr havail hc
    obtain ⟨u, hfeed, hpos⟩ := ih hrest t htr htavail
    have hmsg : message (c :: cs) = firstBytes c.1 c.2 ++ message cs := rfl
    have hsplit := StreamPos.encipher_append s.cfg.carryMode (firstBytes c.1 c.2) (message cs) s.streamPos
    rw [show StreamPos.encipher s.cfg.carryMode (firstBytes c.1 c.2) s.streamPos = _ from hchunk, ← hmsg] at hsplit
    rw [htcfg] at hfeed hpos
    rw [hsplit]
    exact ⟨u, by simp [feed, hexec, hfeed], hpos⟩

/-- Settles O32: both chunkings encipher the same message from the same position (`feed_enciphers`). -/
theorem chunkingIsInvisible : Obligations.ChunkingIsInvisible := by
  intro s cs cs' hr havail hcs hcs' hmsg
  obtain ⟨t, hfeed, hpos⟩ := feed_enciphers cs hcs s hr havail
  obtain ⟨t', hfeed', hpos'⟩ := feed_enciphers cs' hcs' s hr havail
  rw [← hmsg] at hfeed' hpos'
  have hsame : t.streamPos = t'.streamPos := hpos.trans hpos'.symm
  exact ⟨_, t, t', hfeed, hfeed', congrArg StreamPos.s hsame, congrArg StreamPos.ks hsame, congrArg StreamPos.avail hsame⟩

end Sys2Proof.Machine
end

section
/-! The accesses a host makes to the register window (spec/20_memory.md R60 to R67): which offsets hold a register, what a read
returns, what a write stores, and which accesses the bus interface refuses. -/

namespace Sys2Proof.Machine

open Sys2Proof.Spec

/-! ### The window and the offsets without a register -/

/-- Only an address outside the window is not the engine's (R60). -/
theorem locate_eq_outside_iff (c : Config) (width : AccessWidth) (addr : Nat) :
    locate c width addr = .outside ↔ addr < c.base ∨ c.base + 0x100 ≤ addr := by
  by_cases hout : addr < c.base ∨ c.base + 0x100 ≤ addr
  · exact iff_of_true (if_pos hout) hout
  · refine iff_of_false ?_ hout
    rw [locate, Config.windowBytes, if_neg hout]
    split_ifs with hwidth
    · cases regAt (addr - c.base) <;> simp
    · exact not_false

/-- The words of the reserved ranges hold no register (R62). -/
theorem regAtWord_reserved : ∀ w < 64, (4 ≤ w ∧ w ≤ 7) ∨ (24 ≤ w ∧ w ≤ 31) → regAtWord w = none := by decide

/-- No register stands at an unaligned or reserved offset (R62, R64). -/
theorem regAt_eq_none {off : Nat} (h : off % 4 ≠ 0 ∨ Reserved off) : regAt off = none := by
  rw [regAt]
  split_ifs with haligned
  · have hreserved := h.resolve_left (not_not_intro haligned)
    unfold Reserved at hreserved
    exact regAtWord_reserved (off / 4) (by omega) (by omega)
  · rfl

/-- The bus interface refuses a wrong width and an unaligned or reserved offset (R62, R63, R64). -/
theorem locate_busError (c : Config) {width : AccessWidth} {off : Nat} (hoff : off < 256)
    (h : width ≠ .bits32 ∨ off % 4 ≠ 0 ∨ Reserved off) : locate c width (c.base + off) = .busError := by
  rw [locate, Config.windowBytes, if_neg (by omega)]
  split_ifs with hwidth
  · rw [Nat.add_sub_cancel_left, regAt_eq_none (h.resolve_left (not_not_intro hwidth))]
  · rfl

/-- A refused write stores nothing (R67). -/
theorem step_write_busError {s : State} {width : AccessWidth} {addr : Nat} {v : Word} {rest : List BusEvent}
    (hp : s.pending = .write width addr v :: rest) (hl : locate s.cfg width addr = .busError) :
    step s = .next (served s rest .writeError) := by
  simp only [step_cons s _ rest hp, serve, hl, serveWrite, finish]
  rfl

/-- Settles O47: such an access is located at no register (`locate_busError`) and answered without an effect. -/
theorem busErrorsHaveNoEffect : Obligations.BusErrorsHaveNoEffect := by
  intro s width off v rest hoff h
  have hl := locate_busError s.cfg hoff h
  exact ⟨fun hp => step_read_busError hp hl, fun hp => step_write_busError hp hl⟩

/-- Settles O48: the registers by `locate_reg`, the other offsets by `locate_busError`. -/
theorem registerMapOffsets : Obligations.RegisterMapOffsets := by
  intro c
  have hreg := locate_reg c
  exact ⟨hreg .id, hreg .cmd, hreg .status, hreg .config, fun i => hreg (.key i), fun i => hreg (.nonce i),
    fun i => hreg (.ctrin i), fun i => hreg (.state i), fun i => hreg (.din i), fun i => hreg (.dout i),
    fun off hoff h => locate_busError c hoff (.inr h)⟩

/-! ### Reads and writes of registers -/

/-- The model's reads return what R65 lists. -/
theorem readReg_eq_readValue (r : Reg) (s : State) : readReg r s = readValue r s := by
  cases r <;> rfl

/-- A write to an RW register is answered, and the register then reads the value written (R65, R66). -/
theorem writeReg_isRW {r : Reg} (hr : IsRW r) (v : Word) (s : State) :
    ∃ t, writeReg r v s = .done t ∧ readReg r t = v ∧ t.cfg = s.cfg ∧ t.pending = s.pending ∧
      t.responses = .writeOk :: s.responses := by
  obtain ⟨i, rfl⟩ | ⟨i, rfl⟩ | ⟨i, rfl⟩ := hr
  · exact ⟨_, rfl, Vector.getElem_set_self _, rfl, rfl, rfl⟩
  · exact ⟨_, rfl, Vector.getElem_set_self _, rfl, rfl, rfl⟩
  · exact ⟨_, rfl, Vector.getElem_set_self _, rfl, rfl, rfl⟩

/-- A write to an RO register is a bus error and stores nothing (R66). -/
theorem writeReg_isRO {r : Reg} (hr : IsRO r) (v : Word) (s : State) : writeReg r v s = .done (answer .writeError s) := by
  obtain rfl | rfl | rfl | ⟨i, rfl⟩ | ⟨i, rfl⟩ := hr <;> rfl

/-- An RW register reads 0 after reset (R52, R65). -/
theorem readReg_resetWith {r : Reg} (hr : IsRW r) (c : Config) : readReg r (State.resetWith c) = 0 := by
  have hpair : ∀ i : Fin 2, (#v[0, 0] : Vector Word 2)[i] = 0 := by decide
  have hzeros : ∀ i : Fin 16, zeros16[i] = 0 := by decide
  obtain ⟨i, rfl⟩ | ⟨i, rfl⟩ | ⟨i, rfl⟩ := hr
  · exact hpair i
  · exact hpair i
  · exact hzeros i

/-- A write to an RW register followed by its read takes two steps and answers the value written (R65, R66). -/
theorem step_write_then_read {s : State} {r : Reg} {v : Word} {rest : List BusEvent} (hr : IsRW r)
    (hp : s.pending = memWrite s.cfg r.offset v :: memRead s.cfg r.offset :: rest) :
    ∃ t u : State, step s = .next t ∧ step t = .next u ∧ u.pending = rest ∧
      u.responses = .readOk v :: .writeOk :: s.responses := by
  obtain ⟨t, hwrite, hread, hcfg, hpend, hresp⟩ := writeReg_isRW hr v { s with pending := memRead s.cfg r.offset :: rest }
  have hstep : step s = .next t := by rw [step_memWrite s r v _ hp, hwrite, finish]
  have hstep' := step_memRead t r rest (by rw [hpend, hcfg])
  rw [hread] at hstep'
  exact ⟨t, _, hstep, hstep', rfl, congrArg (BusResponse.readOk v :: ·) hresp⟩

/-- Settles O45, by the rule of reads (`step_memRead`) and `step_write_then_read`. -/
theorem readsReturnRegisters : Obligations.ReadsReturnRegisters := by
  refine ⟨fun s r rest hp => ?_, fun s r v rest hr hp => step_write_then_read hr hp, fun c r hr => readReg_resetWith hr c⟩
  rw [← readReg_eq_readValue]
  exact step_memRead s r rest hp

/-- Settles O46, by the rule of writes (`step_memWrite`) at each kind of register. -/
theorem writesStoreWholeRegister : Obligations.WritesStoreWholeRegister := by
  intro s v rest
  refine ⟨fun i hp => step_memWrite s (.key i) v rest hp, fun i hp => step_memWrite s (.nonce i) v rest hp,
    fun i hp => step_memWrite s (.ctrin i) v rest hp, fun i hp => step_memWrite s (.din i) v rest hp,
    fun i hw hd => ?_, fun e hw hd => ?_, fun r hr hp => ?_⟩
  · rw [step_writesCmd hw, runCommand, hd]
  · rw [step_writesCmd hw, runCommand, hd]
    rfl
  · rw [step_memWrite s r v rest hp, writeReg_isRO hr, finish]
    rfl

end Sys2Proof.Machine
end

section
/-! When the machine stops (spec/20_memory.md R60, R77), and that a step takes the first pending access alone (R72, R73). -/

namespace Sys2Proof.Machine

open Sys2Proof.Spec

/-! ### Faults -/

/-- A word written to CMD always gets a next state. -/
theorem runCommand_next (v : Word) (s : State) : ∃ t, runCommand v s = .next t := by
  unfold runCommand
  cases decode v with
  | ok i =>
    obtain ⟨t, ht, -⟩ := exec_effect i s
    exact ⟨t, ht⟩
  | error e => exact ⟨_, rfl⟩

/-- The machine stops with a fault exactly where an event is outside the window (assumption 5). -/
theorem finish_eq_fault_iff (x : Served) : finish x = .fault .outsideWindow ↔ x = .outside := by
  cases x with
  | done t => simp [finish]
  | outside => simp [finish]
  | command v t =>
    obtain ⟨u, hu⟩ := runCommand_next v t
    simp [finish, hu]

/-- No event is refused. -/
theorem finish_ne_refused (x : Served) (r : Refusal) : finish x ≠ .refused r := by
  cases x with
  | done t => simp [finish]
  | outside => simp [finish]
  | command v t =>
    obtain ⟨u, hu⟩ := runCommand_next v t
    simp [finish, hu]

theorem serveRead_eq_outside_iff (t : Target) (s : State) : serveRead t s = .outside ↔ t = .outside := by
  cases t <;> simp [serveRead]

theorem serveWrite_eq_outside_iff (t : Target) (v : Word) (s : State) : serveWrite t v s = .outside ↔ t = .outside := by
  cases t with
  | outside => simp [serveWrite]
  | busError => simp [serveWrite]
  | reg r => cases r <;> simp [serveWrite, writeReg]

/-- An event is outside the window when it is a read or a write at an address that is not the engine's (R60, R77). -/
theorem serve_eq_outside_iff (e : BusEvent) (s : State) :
    serve e s = .outside ↔ ∃ (width : AccessWidth) (addr : Nat) (v : Word),
      (e = .read width addr ∨ e = .write width addr v) ∧ (addr < s.cfg.base ∨ s.cfg.base + 0x100 ≤ addr) := by
  cases e with
  | read width addr => simp [serve, serveRead_eq_outside_iff, locate_eq_outside_iff]
  | write width addr v => simp [serve, serveWrite_eq_outside_iff, locate_eq_outside_iff]
  | reset => simp [serve]

/-- Settles O50: the step stops as its first event does (`finish_eq_fault_iff`, `serve_eq_outside_iff`). -/
theorem faultsExactlyOutsideWindow : Obligations.FaultsExactlyOutsideWindow := by
  refine ⟨fun s => ?_, fun s r => ?_⟩
  · cases hp : s.pending with
    | nil => simp [step_nil s hp]
    | cons e rest =>
      rw [step_cons s e rest hp, finish_eq_fault_iff, serve_eq_outside_iff]
      simp [← or_and_right]
  · cases hp : s.pending with
    | nil => simp [step_nil s hp]
    | cons e rest =>
      rw [step_cons s e rest hp]
      exact finish_ne_refused _ r

/-! ### The events to come -/

/-- The same machine with other events to come. -/
def withPending (p : List BusEvent) (s : State) : State := { s with pending := p }

/-- A command has the same outcome whatever is to come: its rules read and write none of it. -/
theorem effect_withPending {i : Instr} {s t : State} (h : CommandEffect s i t) (p : List BusEvent) :
    CommandEffect (withPending p s) i (withPending p t) := by
  have hbytes : ∀ n, (stream n (withPending p s)).1 = (stream n s).1 := by
    intro n
    rw [stream_bytes, stream_bytes]
    rfl
  cases h with
  | nop => exact .nop
  | clrerr => exact .clrerr
  | setup32 => exact .setup32
  | setup16 => exact .setup16
  | setupOther n h16 h32 => exact .setupOther n h16 h32
  | setctr hr => exact .setctr (s := withPending p s) hr
  | genblk hr => exact .genblk (s := withPending p s) hr
  | processEmpty hr => exact .processEmpty (s := withPending p s) hr
  | processTail n hr hpos hle htail =>
    rw [← hbytes n]
    exact .processTail (s := withPending p s) n hr hpos hle htail
  | processFresh n hr hle hfresh =>
    rw [← hbytes n]
    exact .processFresh (s := withPending p s) n hr hle hfresh
  | processTooLong n hlong => exact .processTooLong n hlong
  | notReady hr hneeds => exact .notReady (s := withPending p s) hr hneeds

theorem runCommand_withPending {v : Word} {s t : State} (h : runCommand v s = .next t) (p : List BusEvent) :
    runCommand v (withPending p s) = .next (withPending p t) := by
  unfold runCommand at h ⊢
  split at h
  next i hd => exact exec_of_effect (effect_withPending (effect_of_exec h) p)
  next e hd =>
    cases h
    rfl

theorem serveRead_withPending (p : List BusEvent) (t : Target) (s : State) :
    serveRead t (withPending p s) = (serveRead t s).mapState (withPending p) := by
  cases t with
  | outside => rfl
  | busError => rfl
  | reg r => cases r <;> rfl

theorem serveWrite_withPending (p : List BusEvent) (t : Target) (v : Word) (s : State) :
    serveWrite t v (withPending p s) = (serveWrite t v s).mapState (withPending p) := by
  cases t with
  | outside => rfl
  | busError => rfl
  | reg r => cases r <;> rfl

/-- An event is served in the same way whatever is to come: the build alone decides where an access goes. -/
theorem serve_withPending (p : List BusEvent) (e : BusEvent) (s : State) :
    serve e (withPending p s) = (serve e s).mapState (withPending p) := by
  cases e with
  | read width addr => exact serveRead_withPending p (locate s.cfg width addr) s
  | write width addr v => exact serveWrite_withPending p (locate s.cfg width addr) v s
  | reset => rfl

theorem finish_withPending {x : Served} {t : State} (h : finish x = .next t) (p : List BusEvent) :
    finish (x.mapState (withPending p)) = .next (withPending p t) := by
  cases x with
  | done s =>
    cases h
    rfl
  | command v s => exact runCommand_withPending h p
  | outside => cases h

/-- The step on the first event does not depend on the events behind it (R72, R73). -/
theorem step_withPending {s t : State} {e : BusEvent} {rest : List BusEvent} (hp : s.pending = e :: rest)
    (h : step s = .next t) (rest' : List BusEvent) :
    step { s with pending := e :: rest' } = .next { t with pending := rest' } := by
  rw [step_cons s e rest hp] at h
  rw [step_cons _ e rest' rfl]
  exact (congrArg finish (serve_withPending rest' e { s with pending := rest })).trans (finish_withPending h rest')

/-- A step takes the first event, keeps the build and answers an access once (R72). -/
theorem step_takes_first {s t : State} {e : BusEvent} {rest : List BusEvent} (hp : s.pending = e :: rest)
    (h : step s = .next t) :
    t.pending = rest ∧ t.cfg = s.cfg ∧ (e = .reset → t.responses = s.responses) ∧
      (e ≠ .reset → ∃ r, t.responses = r :: s.responses) := by
  cases effect_of_step h with
  | idle hnil => cases hp.symm.trans hnil
  | read width addr rest' r hp' =>
    cases hp.symm.trans hp'
    exact ⟨rfl, rfl, BusEvent.noConfusion, fun _ => ⟨r, rfl⟩⟩
  | write width addr v rest' r _ _ _ _ hp' =>
    cases hp.symm.trans hp'
    exact ⟨rfl, rfl, BusEvent.noConfusion, fun _ => ⟨r, rfl⟩⟩
  | illegal v rest' _ hw =>
    cases hp.symm.trans hw
    exact ⟨rfl, rfl, BusEvent.noConfusion, fun _ => ⟨.writeOk, rfl⟩⟩
  | command v rest' i hw hd heffect =>
    cases hp.symm.trans hw
    obtain ⟨-, -, -, -, hcfg, hpend, hresp⟩ := commandsKeepInputRegisters i _ t (exec_of_effect heffect)
    exact ⟨hpend, hcfg, BusEvent.noConfusion, fun _ => ⟨.writeOk, hresp⟩⟩
  | reset rest' hp' =>
    cases hp.symm.trans hp'
    exact ⟨rfl, rfl, fun _ => rfl, fun hne => absurd rfl hne⟩

/-- Settles O51, by `step_takes_first` and `step_withPending`. -/
theorem accessesServedInArrivalOrder : Obligations.AccessesServedInArrivalOrder :=
  ⟨fun _ _ _ _ hp h => step_takes_first hp h, fun _ _ _ _ rest' hp h => step_withPending hp h rest'⟩

end Sys2Proof.Machine
end

section
/-! The words of the command encoding (spec/30_encoding.md R91 to R95, R100): which words decode, to what, and what writing one
that does not decode does. -/

namespace Sys2Proof.Machine

open Sys2Proof.Spec

/-! ### Round trips -/

/-- Settles O4, by the fields of an encoded command (`decode_encode`). -/
theorem decodeOfEncode : Obligations.DecodeOfEncode := fun _ hwf => decode_encode hwf

/-- Settles O5, by the opcode map read backwards (`encode_of_decode`). -/
theorem encodeOfDecode : Obligations.EncodeOfDecode := fun _ _ h => encode_of_decode h

/-! ### The words of R100 -/

/-- Settles O6, by running the decoder on each of the nine words. -/
theorem sampleWordsDecode : Obligations.SampleWordsDecode := by
  refine ⟨?_, ?_, ?_, ?_, ?_, ?_, ?_, ?_, ?_⟩ <;> rfl

/-! ### The pseudocode of R94 -/

/-- The decoder finds the command that the pseudocode finds. -/
theorem decode_eq_ok_iff_decodeR94 (v : Word) (i : Instr) : decode v = .ok i ↔ decodeR94 v = some i := by
  rw [decodeR94_eq_decode]
  cases decode v <;> simp [Except.toOption]

/-- The decoder refuses a word where the pseudocode answers Illegal. -/
theorem decode_error_iff_decodeR94 (v : Word) : (∃ e, decode v = .error e) ↔ decodeR94 v = none := by
  rw [decodeR94_eq_decode]
  cases decode v <;> simp [Except.toOption]

/-- Writing a word that decodes to CMD executes the command (R94). -/
theorem step_writesCmd_legal {s : State} {v : Word} {rest : List BusEvent} {i : Instr} (hw : WritesCmd s v rest)
    (hd : decode v = .ok i) : step s = exec i (served s rest .writeOk) :=
  cmdWriteRunsDecodedCommand.1 s v i rest hw hd

/-- Writing an illegal word to CMD records ILLEGAL_COMMAND and nothing else (R94, R194). -/
theorem step_writesCmd_illegal {s : State} {v : Word} {rest : List BusEvent} {e : DecodeError} (hw : WritesCmd s v rest)
    (hd : decode v = .error e) : step s = .next { served s rest .writeOk with lastErr := 1, errSticky := true } := by
  rw [step_writesCmd hw, runCommand, hd]
  rfl

/-- Settles O1: the decoder is the pseudocode (`decodeR94_eq_decode`), and a write to CMD runs what it finds
(`step_writesCmd_legal`, `step_writesCmd_illegal`). -/
theorem decoderFollowsPseudocode : Obligations.DecoderFollowsPseudocode := by
  intro v
  refine ⟨decode_eq_ok_iff_decodeR94 v, decode_error_iff_decodeR94 v, fun s rest hw => ⟨fun hnone => ?_, fun i hi => ?_⟩⟩
  · obtain ⟨e, hd⟩ := (decode_error_iff_decodeR94 v).mpr hnone
    exact step_writesCmd_illegal hw hd
  · exact step_writesCmd_legal hw ((decode_eq_ok_iff_decodeR94 v i).mpr hi)

/-! ### The illegal words of R95 -/

/-- A command whose ARG must be 0 is refused with every other ARG (R94). -/
theorem whenArgZero_error_iff (arg : Nat) (i : Instr) : (∃ e, whenArgZero arg i = .error e) ↔ arg ≠ 0 := by
  unfold whenArgZero
  split_ifs with harg <;> simp [harg]

/-- The opcode map has no command at the OPs 6 to 15, and none with an argument at the OPs 0, 2, 3 and 5 (R93). -/
theorem decodeOp_error_iff (op : BitVec 4) (arg : Nat) :
    (∃ e, decodeOp op arg = .error e) ↔ 6 ≤ op.toNat ∨ (op = 0 ∨ op = 2 ∨ op = 3 ∨ op = 5) ∧ arg ≠ 0 := by
  unfold decodeOp
  split_ifs with h0 h1 h2 h3 h4 h5
  · simp [h0, whenArgZero_error_iff]
  · simp [h1]
  · simp [h2, whenArgZero_error_iff]
  · simp [h3, whenArgZero_error_iff]
  · simp [h4]
  · simp [h5, whenArgZero_error_iff]
  · have hlarge : 6 ≤ op.toNat := by bv_omega
    simp [hlarge]

/-- The words R95 lists are exactly those the decoder refuses. -/
theorem decode_error_iff_illegalR95 (v : Word) : (∃ e, decode v = .error e) ↔ IllegalR95 v := by
  have harg : (argField v).toNat = 0 ↔ argField v = 0 := BitVec.toNat_inj (y := 0)
  have hop := decodeOp_error_iff (opField v) (argField v).toNat
  rw [ne_eq, harg] at hop
  change _ ↔ rsv1Field v ≠ 0 ∨ rsv0Field v ≠ 0 ∨ 6 ≤ (opField v).toNat ∨
    (opField v = 0 ∨ opField v = 2 ∨ opField v = 3 ∨ opField v = 5) ∧ argField v ≠ 0
  rw [← hop]
  unfold decode
  split_ifs with h1 h0
  · exact iff_of_true ⟨_, rfl⟩ (.inl h1)
  · exact iff_of_true ⟨_, rfl⟩ (.inr (.inl h0))
  · rw [or_iff_right h1, or_iff_right h0]

/-- Settles O3: the decoder's errors are the words of R95 (`decode_error_iff_illegalR95`), and writing one records
ILLEGAL_COMMAND alone (`step_writesCmd_illegal`). -/
theorem illegalWordsRaiseIllegalCommand : Obligations.IllegalWordsRaiseIllegalCommand := by
  intro v
  refine ⟨(decode_error_iff_illegalR95 v).mpr, fun hlegal => ?_, fun s rest hw hillegal => ?_⟩
  · cases hd : decode v with
    | ok i => exact ⟨i, rfl⟩
    | error e => exact absurd ((decode_error_iff_illegalR95 v).mp ⟨e, hd⟩) hlegal
  · obtain ⟨e, hd⟩ := (decode_error_iff_illegalR95 v).mpr hillegal
    exact step_writesCmd_illegal hw hd

/-! ### The words with a legal argument -/

/-- The word of a command as a number: the argument in bits [15:8], the OP in bits [3:0] (R91). -/
theorem encode_eq_ofNat {i : Instr} (hwf : i.wellFormed = true) :
    encode i = BitVec.ofNat 32 (i.op.toNat + 0x100 * i.arg) := by
  have harg : i.arg < 256 := of_decide_eq_true hwf
  have hop := i.op.isLt
  apply BitVec.eq_of_toNat_eq
  rw [encode, toNat_append_eq_add, toNat_append_eq_add, toNat_append_eq_add, BitVec.toNat_ofNat, BitVec.toNat_ofNat]
  simp
  omega

/-- A legal argument fits the ARG field (R92). -/
theorem wellFormed_of_legalArgument {i : Instr} (h : LegalArgument i) : i.wellFormed = true := by
  cases i with
  | setup n =>
    obtain rfl | rfl := h <;> rfl
  | process n => exact decide_eq_true (Nat.lt_of_le_of_lt h (by decide))
  | _ => rfl

/-- The words of the commands with a legal argument are their encodings. -/
theorem decodes_legal_iff (v : Word) : (∃ i, decode v = .ok i ∧ LegalArgument i) ↔ ∃ i, LegalArgument i ∧ encode i = v := by
  constructor
  · rintro ⟨i, hd, hlegal⟩
    exact ⟨i, hlegal, (encode_of_decode hd).1⟩
  · rintro ⟨i, hlegal, rfl⟩
    exact ⟨i, decode_encode (wellFormed_of_legalArgument hlegal), hlegal⟩

/-- Settles O2: the words are the encodings of the commands with a legal argument (`decodes_legal_iff`), one group of R93 for
each command. -/
theorem legalCommandWords : Obligations.LegalCommandWords := by
  intro v
  rw [decodes_legal_iff]
  constructor
  · rintro ⟨i, hlegal, rfl⟩
    cases i with
    | nop => exact .inl rfl
    | setup n =>
      obtain rfl | rfl := hlegal
      · exact .inr (.inl rfl)
      · exact .inr (.inr (.inl rfl))
    | setctr => exact .inr (.inr (.inr (.inl rfl)))
    | genblk => exact .inr (.inr (.inr (.inr (.inl rfl))))
    | process n =>
      exact .inr (.inr (.inr (.inr (.inr (.inl ⟨n, hlegal, encode_eq_ofNat (wellFormed_of_legalArgument hlegal)⟩)))))
    | clrerr => exact .inr (.inr (.inr (.inr (.inr (.inr rfl)))))
  · rintro (rfl | rfl | rfl | rfl | rfl | ⟨n, hle, rfl⟩ | rfl)
    · exact ⟨.nop, trivial, rfl⟩
    · exact ⟨.setup 16, .inl rfl, rfl⟩
    · exact ⟨.setup 32, .inr rfl, rfl⟩
    · exact ⟨.setctr, trivial, rfl⟩
    · exact ⟨.genblk, trivial, rfl⟩
    · exact ⟨.process n, hle, encode_eq_ofNat (i := .process n) (wellFormed_of_legalArgument hle)⟩
    · exact ⟨.clrerr, trivial, rfl⟩

end Sys2Proof.Machine
end

section
/-! The pseudo-instructions of spec/30_encoding.md R99, run: serving the accesses a line stands for leaves what the line
names. -/

namespace Sys2Proof.Machine

open Sys2Proof.Spec

/-- A run whose first access stores to a register goes on from the state that holds the word (R66, R72). -/
theorem run_busWrite {s t : State} {r : Reg} {v : Word} {rest : List BusEvent} (k : Nat)
    (hp : s.pending = busWrite s.cfg r v :: rest) (hw : writeReg r v { s with pending := rest } = .done t) :
    run (k + 1) s = run k t :=
  run_step k s t (by rw [step_memWrite s r v rest hp, hw, finish])

/-- Serving the writes of `ws` to the key registers from KEY(j) on stores each word in its register and changes nothing else
of the engine (R45, R66). -/
theorem run_keyWrites (ws : List Word) (j : Nat) (hj : j + ws.length ≤ 8) (s : State)
    (hp : s.pending = (ws.zipIdx j).map fun p => busWrite s.cfg (.key (Fin.ofNat 8 p.2)) p.1) :
    ∃ t : State, run ws.length s = .next t ∧ SameEngine t { s with key := t.key } ∧
      ∀ (i : Nat) (hi : i < 8), t.key[i] = if j ≤ i then ws.getD (i - j) s.key[i] else s.key[i] := by
  induction ws generalizing j s with
  | nil => exact ⟨s, rfl, by simp [SameEngine], fun i hi => by simp⟩
  | cons w ws ih =>
    have hlen : j + 1 + ws.length ≤ 8 := by
      rw [List.length_cons] at hj
      omega
    have hidx : (Fin.ofNat 8 j).val = j := Nat.mod_eq_of_lt (by omega)
    rw [List.zipIdx_cons, List.map_cons] at hp
    obtain ⟨t, hrun, hsame, hkey⟩ := ih (j + 1) hlen
      (answer .writeOk { s with
        key := s.key.set (Fin.ofNat 8 j) w
        pending := (ws.zipIdx (j + 1)).map fun p => busWrite s.cfg (.key (Fin.ofNat 8 p.2)) p.1 }) rfl
    refine ⟨t, (run_busWrite ws.length hp rfl).trans hrun, hsame, fun i hi => ?_⟩
    rw [hkey i hi]
    simp only [answer_key, hidx]
    obtain hlt | rfl | hgt := Nat.lt_trichotomy i j
    · have hle : ¬ j ≤ i := by omega
      have hle' : ¬ j + 1 ≤ i := by omega
      rw [if_neg hle, if_neg hle', Vector.getElem_set_ne _ _ (by omega)]
    · simp
    · have hsub : i - j = (i - (j + 1)) + 1 := by omega
      rw [if_pos (by omega), if_pos (by omega), Vector.getElem_set_ne _ _ (by omega), hsub, List.getD_cons_succ]

/-- LDKEY32 leaves the eight key words (R99). -/
theorem run_ldkey32 {s : State} {k : Vector Word 8} (hp : s.pending = HostLine.accesses s.cfg (.ldkey32 k)) :
    ∃ t : State, run 8 s = .next t ∧ SameEngine t { s with key := k } := by
  obtain ⟨t, hrun, hsame, hkey⟩ := run_keyWrites k.toList 0 (by simp) s hp
  have hk : t.key = k := by
    ext1 i hi
    simp [hkey i hi, List.getD, hi]
  rw [Vector.length_toList] at hrun
  exact ⟨t, hrun, hk ▸ hsame⟩

/-- LDKEY16 leaves the four key words and the other four as they were (R99). -/
theorem run_ldkey16 {s : State} {k : Vector Word 4} (hp : s.pending = HostLine.accesses s.cfg (.ldkey16 k)) :
    ∃ t : State, run 4 s = .next t ∧ (∀ i : Fin 4, t.key[i.val] = k[i]) ∧
      (∀ i : Fin 8, 4 ≤ i.val → t.key[i] = s.key[i]) ∧ SameEngine t { s with key := t.key } := by
  obtain ⟨t, hrun, hsame, hkey⟩ := run_keyWrites k.toList 0 (by simp) s hp
  rw [Vector.length_toList] at hrun
  refine ⟨t, hrun, fun i => ?_, fun i hi => ?_, hsame⟩
  · simp [hkey i.val (by omega), List.getD]
  · simp [hkey i.val i.isLt, List.getD, hi]

/-- LDNONCE leaves the two nonce words (R99). -/
theorem run_ldnonce {s : State} {n0 n1 : Word} (hp : s.pending = HostLine.accesses s.cfg (.ldnonce n0 n1)) :
    ∃ t : State, run 2 s = .next t ∧ SameEngine t { s with nonceIn := #v[n0, n1] } := by
  have hboth : (s.nonceIn.set 0 n0).set 1 n1 = #v[n0, n1] := by
    ext1 i hi
    obtain rfl | rfl : i = 0 ∨ i = 1 := by omega
    · simp
    · simp
  rw [← hboth]
  refine ⟨_, (run_busWrite 1 hp rfl).trans (run_busWrite 0 (r := .nonce 1) (v := n1) (rest := []) rfl rfl), ?_⟩
  simp [SameEngine]

/-- A 64-bit value is the counter of the context whose words 12 and 13 are its halves (R23). -/
theorem counter64_set_halves (s : Words16) (c : BitVec 64) :
    counter64 ((s.set 12 (c.extractLsb' 0 32)).set 13 (c.extractLsb' 32 32)) = c := by
  have hhalves : (c.extractLsb' 32 32 ++ c.extractLsb' 0 32 : BitVec 64) = c.extractLsb' 0 64 :=
    BitVec.extractLsb'_append_extractLsb'_eq_extractLsb' rfl
  rw [BitVec.extractLsb'_eq_self] at hhalves
  simpa [counter64] using hhalves

/-- The step on a write of SETCTR's word to CMD in a READY context (R118). -/
theorem step_writesSetctr {s : State} {rest : List BusEvent} (hr : s.ready = true)
    (hw : WritesCmd s (encode .setctr) rest) :
    step s = .next (succeed { served s rest .writeOk with
      s := (s.s.set 12 s.ctrIn[0]).set 13 s.ctrIn[1], ks := zeros16, avail := 0 }) := by
  rw [step_writesCmd_legal hw (decode_encode rfl)]
  exact execSetctr_ready (served s rest .writeOk) hr

/-- SEEK on a READY context leaves the counter, an empty buffer and no error (R99, R118). -/
theorem run_seek {s : State} {c : BitVec 64} (hr : s.ready = true) (hp : s.pending = HostLine.accesses s.cfg (.seek c)) :
    ∃ t : State, run 3 s = .next t ∧ counter64 t.s = c ∧ t.avail = 0 ∧ t.lastErr = 0 ∧ t.pending = [] := by
  have hloads := (run_busWrite 2 hp rfl).trans (run_busWrite 1 (r := .ctrin 1) (v := c.extractLsb' 32 32)
    (rest := [busWrite s.cfg .cmd (encode .setctr)]) rfl rfl)
  refine ⟨_, hloads.trans (run_step 0 _ _ (step_writesSetctr (rest := []) hr rfl)), ?_, rfl, rfl, rfl⟩
  simpa using counter64_set_halves s.s c

/-- Settles O57, one lemma for each line of R99 it names; the key lines share `run_keyWrites`. -/
theorem pseudoInstructionsRun : Obligations.PseudoInstructionsRun :=
  ⟨fun _ _ hp => run_ldkey32 hp, fun _ _ hp => run_ldkey16 hp, fun _ _ _ hp => run_ldnonce hp,
    fun _ _ hr hp => run_seek hr hp⟩

end Sys2Proof.Machine
end

section
/-! SETUP and SETCTR (spec/40_setup_counter.md R110 to R119): what each loads into the context, and what it leaves. -/

namespace Sys2Proof.Machine

open Sys2Proof.Spec

/-! ### SETUP -/

/-- A successful SETUP installs a context with counter 0 and the nonce in NONCE, whatever the key length (R114). -/
theorem exec_setup_legal {n : Nat} (hn : n = 16 ∨ n = 32) (s : State) :
    ∃ consts k0 k1 : Vector Word 4,
      exec (.setup n) s = .next (installContext (contextWords consts k0 k1 s.nonceIn) s) := by
  obtain rfl | rfl := hn
  · exact ⟨_, _, _, execSetup_16 s⟩
  · exact ⟨_, _, _, execSetup_32 s⟩

/-- The lower half of the key is read from KEY0 to KEY3 alone (R113). -/
theorem keyLow_congr {s s' : State} (h : ∀ i : Fin 4, s.key[i.val] = s'.key[i.val]) : keyLow s = keyLow s' := by
  have h0 := h 0
  have h1 := h 1
  have h2 := h 2
  have h3 := h 3
  simp_all [keyLow]

/-- Words 12 to 15 of a new context: counter 0 and the nonce (R114). -/
theorem contextWords_counter_nonce (consts k0 k1 : Vector Word 4) (nonce : Vector Word 2) :
    (contextWords consts k0 k1 nonce)[12] = 0 ∧ (contextWords consts k0 k1 nonce)[13] = 0 ∧
    (contextWords consts k0 k1 nonce)[14] = nonce[0] ∧ (contextWords consts k0 k1 nonce)[15] = nonce[1] :=
  ⟨rfl, rfl, rfl, rfl⟩

/-- The buffer SETUP and SETCTR leave is zero. -/
theorem zeros16_getElem (i : Fin 16) : zeros16[i] = 0 := by
  revert i
  decide

/-- A write to a KEY or NONCE register changes that register alone (R66, R114). -/
theorem step_write_key_or_nonce {s : State} {v : Word} {r : Reg} {rest : List BusEvent}
    (hr : (∃ i, r = .key i) ∨ ∃ i, r = .nonce i) (hp : s.pending = memWrite s.cfg r.offset v :: rest) :
    ∃ t : State, step s = .next t ∧ SameEngine { t with key := s.key, nonceIn := s.nonceIn } s := by
  have hstep := step_memWrite s r v rest hp
  obtain ⟨i, rfl⟩ | ⟨i, rfl⟩ := hr
  · exact ⟨_, hstep, by simp [SameEngine]⟩
  · exact ⟨_, hstep, by simp [SameEngine]⟩

/-- Settles O13, by the one form of a successful SETUP (`exec_setup_legal`) and the register write
(`step_write_key_or_nonce`). -/
theorem setupCommonPart : Obligations.SetupCommonPart := by
  refine ⟨fun s n hn => ?_, fun s v r rest hr hp => step_write_key_or_nonce hr hp⟩
  obtain ⟨consts, k0, k1, hexec⟩ := exec_setup_legal hn s
  obtain ⟨h12, h13, h14, h15⟩ := contextWords_counter_nonce consts k0 k1 s.nonceIn
  exact ⟨_, hexec, h12, h13, h14, h15, rfl, zeros16_getElem, rfl, rfl, rfl, rfl, rfl, rfl, rfl, rfl⟩

/-- The words SETUP installs depend on the key registers it reads and on NONCE alone (R115). -/
theorem setup_context_congr {s s' t t' : State} {n : Nat} (hn : n = 16 ∨ n = 32)
    (hkey : ∀ i : Fin 8, n = 32 ∨ i.val < 4 → s.key[i] = s'.key[i]) (hnonce : s.nonceIn = s'.nonceIn)
    (h : exec (.setup n) s = .next t) (h' : exec (.setup n) s' = .next t') :
    t.s = t'.s ∧ t.ks = t'.ks ∧ t.avail = t'.avail ∧ t.ready = t'.ready := by
  have hlow : keyLow s = keyLow s' := keyLow_congr fun i => hkey (i.castLE (by decide)) (.inr i.isLt)
  obtain rfl | rfl := hn
  · cases (execSetup_16 s).symm.trans h
    cases (execSetup_16 s').symm.trans h'
    exact ⟨by simp only [installContext_s, hlow, hnonce], rfl, rfl, rfl⟩
  · have hhigh : keyHigh s = keyHigh s' := by
      have h4 := hkey 4 (.inl rfl)
      have h5 := hkey 5 (.inl rfl)
      have h6 := hkey 6 (.inl rfl)
      have h7 := hkey 7 (.inl rfl)
      simp_all [keyHigh]
    cases (execSetup_32 s).symm.trans h
    cases (execSetup_32 s').symm.trans h'
    exact ⟨by simp only [installContext_s, hlow, hhigh, hnonce], rfl, rfl, rfl⟩

/-- Settles O14: the error of SETUP written out (R111, R193). -/
theorem setupRejectsOtherLengths : Obligations.SetupRejectsOtherLengths := fun s n h16 h32 =>
  execSetup_other n s h16 h32

/-- Settles O15, one corner case of R115 each; the last by the commands that keep READY (`effect_keeps_ready`). -/
theorem setupCornerCases : Obligations.SetupCornerCases := by
  refine ⟨fun s s' t t' n hn hkey hnonce h h' => setup_context_congr hn hkey hnonce h h',
    fun s t n h16 h32 h => ?_, fun s n hn => ?_, fun i s t h hs ht => ?_⟩
  · cases (setupRejectsOtherLengths s n h16 h32).symm.trans h
    exact ⟨rfl, rfl⟩
  · obtain ⟨consts, k0, k1, hexec⟩ := exec_setup_legal hn { s with key := #v[0, 0, 0, 0, 0, 0, 0, 0], nonceIn := #v[0, 0] }
    exact ⟨_, hexec, rfl, rfl⟩
  · by_contra hsetup
    have hready := effect_keeps_ready (not_exists.mp hsetup) (effect_of_exec h)
    simp [hs, ht] at hready

/-- Settles O11: the context of `execSetup_32`, read word by word. -/
theorem setup32LoadsContext : Obligations.Setup32LoadsContext := by
  intro s
  refine ⟨_, execSetup_32 s, rfl, rfl, rfl, rfl, fun i => ?_, rfl⟩
  fin_cases i <;> rfl

/-- Settles O12: the context of `execSetup_16`, read word by word; other values of KEY4 to KEY7 give the same lower half
(`keyLow_congr`). -/
theorem setup16LoadsContext : Obligations.Setup16LoadsContext := by
  intro s
  refine ⟨_, execSetup_16 s, rfl, rfl, rfl, rfl, fun i => ?_, rfl, fun k hk => ?_⟩
  · fin_cases i <;> exact ⟨rfl, rfl⟩
  · have hlow : keyLow { s with key := k } = keyLow s := keyLow_congr hk
    exact (execSetup_16 _).trans (by rw [hlow]; rfl)

/-! ### SETCTR -/

/-- SETCTR has no argument, so it has one word (R93, R118). -/
theorem decode_eq_setctr_iff (v : Word) : decode v = .ok .setctr ↔ v = 0x00000002 :=
  ⟨fun h => (encode_of_decode h).1.symm, fun h => h ▸ decode_encode (i := .setctr) rfl⟩

/-- Settles O16, by its equation in a READY context (`execSetctr_ready`) and in one that is not (`execSetctr_notReady`). -/
theorem setctrLoadsCounter : Obligations.SetctrLoadsCounter := by
  refine ⟨decode_eq_setctr_iff, fun s hr => ?_, fun s hr => execSetctr_notReady s hr⟩
  refine ⟨_, execSetctr_ready s hr, by simp, by simp, fun i h12 h13 => ?_, zeros16_getElem, rfl⟩
  simp [h12.symm, h13.symm]

end Sys2Proof.Machine
end

section
/-! The context after a number of blocks as a function of that number (spec/41_block.md R138, R139), and seeking with SETCTR
(spec/40_setup_counter.md R121, spec/70_reset_and_hazards.md R229). -/

namespace Sys2Proof.Machine

open Sys2Proof.Spec

/-! ### The context after k blocks -/

/-- With CARRY_MODE 64 the advance writes words 12 and 13 alone (R138). -/
theorem advance_c64_keeps (s : Words16) (i : Nat) (hi : i < 16) (h12 : i ≠ 12) (h13 : i ≠ 13) :
    (advance .c64 s)[i] = s[i] := by
  obtain ⟨h14, h15⟩ := advance_c64_nonce s
  obtain hlow | rfl | rfl : i < 12 ∨ i = 14 ∨ i = 15 := by omega
  · exact advance_below12 .c64 s i hlow
  · exact h14
  · exact h15

/-- With CARRY_MODE 64, one block and then k more are k + 1 blocks (R138). -/
theorem contextAfter_advance_c64 (s : Words16) (k : Nat) :
    contextAfter .c64 (advance .c64 s) k = contextAfter .c64 s (k + 1) := by
  have hcount := congrArg BitVec.toNat (counter64_advance .c64 s)
  rw [BitVec.toNat_add, counter64_toNat, counter64_toNat] at hcount
  simp only [contextAfter, hcount]
  ext1 i hi
  by_cases h13 : i = 13
  · subst h13
    simp [← BitVec.toNat_inj]
    omega
  by_cases h12 : i = 12
  · subst h12
    simp [← BitVec.toNat_inj]
    omega
  simp [Ne.symm h12, Ne.symm h13, advance_c64_keeps s i hi h12 h13]

/-- With CARRY_MODE 128, one block and then k more are k + 1 blocks (R139). -/
theorem contextAfter_advance_c128 (s : Words16) (k : Nat) :
    contextAfter .c128 (advance .c128 s) k = contextAfter .c128 s (k + 1) := by
  have hcount := congrArg BitVec.toNat (counter128_advance s)
  rw [BitVec.toNat_add, counter128_toNat, counter128_toNat] at hcount
  simp only [contextAfter, hcount]
  ext1 i hi
  obtain hlow | rfl | rfl | rfl | rfl : i < 12 ∨ i = 12 ∨ i = 13 ∨ i = 14 ∨ i = 15 := by omega
  · have h12 : 12 ≠ i := by omega
    have h13 : 13 ≠ i := by omega
    have h14 : 14 ≠ i := by omega
    have h15 : 15 ≠ i := by omega
    simp [h12, h13, h14, h15, advance_below12 .c128 s i hlow]
  all_goals
    simp [← BitVec.toNat_inj]
    omega

/-- One block and then k more are k + 1 blocks (R138, R139). -/
theorem contextAfter_advance (mode : CarryMode) (s : Words16) (k : Nat) :
    contextAfter mode (advance mode s) k = contextAfter mode s (k + 1) := by
  cases mode with
  | c64 => exact contextAfter_advance_c64 s k
  | c128 => exact contextAfter_advance_c128 s k

/-- Until the 64-bit counter wraps, both carry modes count alike: no carry reaches the nonce (R139). -/
theorem contextAfter_of_no_wrap (mode : CarryMode) {s : Words16} {k : Nat}
    (hk : s[13].toNat * 2 ^ 32 + s[12].toNat + k < 2 ^ 64) : contextAfter mode s k = contextAfter .c64 s k := by
  cases mode with
  | c64 => rfl
  | c128 =>
    have h12 := s[12].isLt
    have h13 := s[13].isLt
    simp only [contextAfter]
    ext1 i hi
    obtain hlow | rfl | rfl | rfl | rfl : i < 12 ∨ i = 12 ∨ i = 13 ∨ i = 14 ∨ i = 15 := by omega
    · have hne12 : 12 ≠ i := by omega
      have hne13 : 13 ≠ i := by omega
      have hne14 : 14 ≠ i := by omega
      have hne15 : 15 ≠ i := by omega
      simp [hne12, hne13, hne14, hne15]
    all_goals
      simp [← BitVec.toNat_inj]
      omega

/-- The two halves of a 64-bit counter are its words (R23). -/
theorem halves_of_counter (lo hi : Word) :
    BitVec.ofNat 32 (hi.toNat * 2 ^ 32 + lo.toNat) = lo ∧
    BitVec.ofNat 32 ((hi.toNat * 2 ^ 32 + lo.toNat) / 2 ^ 32) = hi := by
  have hlo := lo.isLt
  rw [← BitVec.toNat_inj, ← BitVec.toNat_inj, BitVec.toNat_ofNat, BitVec.toNat_ofNat]
  omega

/-- No block leaves the context. -/
theorem contextAfter_zero (mode : CarryMode) (s : Words16) : contextAfter mode s 0 = s := by
  have hlo := s[12].isLt
  have hhi := s[13].isLt
  obtain ⟨h12, h13⟩ := halves_of_counter s[12] s[13]
  rw [contextAfter_of_no_wrap mode (by omega)]
  simp only [contextAfter, Nat.add_zero, h12, h13, Vector.set_getElem_self]

/-- Below 2^64 blocks from counter 0, the block number is the 64-bit counter in either mode (R138, R139). -/
theorem contextAfter_of_counter_zero (mode : CarryMode) {s : Words16} (h12 : s[12] = 0) (h13 : s[13] = 0) (lo hi : Word) :
    contextAfter mode s (hi.toNat * 2 ^ 32 + lo.toNat) = (s.set 12 lo).set 13 hi := by
  have hlt := lo.isLt
  have hlt' := hi.isLt
  have hzero : s[13].toNat * 2 ^ 32 + s[12].toNat = 0 := by simp [h12, h13]
  obtain ⟨hlo, hhi⟩ := halves_of_counter lo hi
  rw [contextAfter_of_no_wrap mode (by omega)]
  simp only [contextAfter, hzero, Nat.zero_add, hlo, hhi]

/-! ### SETCTR and the block number -/

/-- The last of n + 1 GENBLK commands delivers the block of the context after n blocks (R138, R139, R145). -/
theorem genblks_dout (n : Nat) {s : State} (hr : s.ready = true) :
    ∃ t, genblks (n + 1) s = some t ∧ t.dout = block (contextAfter s.cfg.carryMode s.s n) := by
  induction n generalizing s with
  | zero =>
    have hexec : exec .genblk s = _ := execGenblk_ready s hr
    exact ⟨_, by rw [genblks, hexec]; rfl, by rw [contextAfter_zero]; rfl⟩
  | succ n ih =>
    have hexec : exec .genblk s = _ := execGenblk_ready s hr
    obtain ⟨t, hblks, hdout⟩ := ih (s := succeed (advanceCounter { s with dout := block s.s })) hr
    refine ⟨t, by rw [genblks, hexec]; exact hblks, ?_⟩
    rw [hdout, ← contextAfter_advance]
    rfl

/-- Settles O17: SETCTR to n loads the context after n blocks (`contextAfter_of_counter_zero`), whose block is the last of
n + 1 (`genblks_dout`). -/
theorem setctrReproducesBlock : Obligations.SetctrReproducesBlock := by
  intro s n hr h12 h13 hn
  obtain ⟨t, hblks, hdout⟩ := genblks_dout n hr
  refine ⟨_, _, t, execSetctr_ready s hr, execGenblk_ready _ hr, hblks, ?_⟩
  rw [hdout, hn, contextAfter_of_counter_zero _ h12 h13]
  rfl

/-! ### Resuming inside a block -/

/-- DOUT after a PROCESS holds the input bytes XORed with the keystream bytes (R163, R164, R167). -/
theorem process_dout {s : State} {n : Nat} (hr : s.ready = true) (hpos : 1 ≤ n) (hn : n ≤ 64) :
    ∃ t, exec (.process n) s = .next t ∧ ∀ j < n, byteAt t.dout j = byteAt s.din j ^^^ keystreamByte s j := by
  refine ⟨_, execProcess_ready n s hn (by omega) hr, fun j hj => ?_⟩
  rw [succeed_dout, byteAt_stream n s j (by omega), if_pos hj]

/-- Behind k bytes of a PROCESS from an empty buffer, the keystream goes on with byte k of the block of the old context
(R164, R165); k may be 0. -/
theorem process_from_empty_keystream {s : State} {k : Nat} (hr : s.ready = true) (havail : s.avail = 0) (hk : k < 64) :
    ∃ t, exec (.process k) s = .next t ∧ t.ready = true ∧
      ∀ j, k + j < 64 → keystreamByte t j = byteAt (block s.s) (k + j) := by
  by_cases hzero : k = 0
  · subst hzero
    exact ⟨_, execProcess_empty s hr, hr, fun j hj => by simp [keystreamByte, havail]⟩
  · have hfresh : s.avail < k := by omega
    refine ⟨_, exec_of_effect (.processFresh k hr hk.le hfresh), hr, fun j hj => ?_⟩
    have hleft : j < 64 - k := by omega
    have hoff : 64 - (64 - k) = k := by omega
    simp [keystreamByte, havail, hleft, hoff]

/-- Settles O35: SETCTR empties the buffer, PROCESS k moves to byte k of the block (`process_from_empty_keystream`), and
PROCESS n goes on from there (`process_dout`). -/
theorem seekToByteOffset : Obligations.SeekToByteOffset := by
  intro s k n d hr hk hpos hsum
  obtain ⟨-, hload, -⟩ := setctrLoadsCounter
  obtain ⟨a, ha, h12, h13, -, -, hstate⟩ := hload s hr
  have hready : a.ready = true := hstate ▸ hr
  have havail : a.avail = 0 := by rw [hstate]
  obtain ⟨b, hb, hbready, hkeystream⟩ := process_from_empty_keystream hready havail hk
  obtain ⟨u, hu, hdout⟩ := process_dout (s := { b with din := d }) hbready hpos (by omega)
  refine ⟨a, b, u, ha, hb, hu, h12, h13, fun j hj => ?_⟩
  rw [hdout j hj, ← hkeystream j (by omega)]
  rfl

end Sys2Proof.Machine
end

section
/-! The quarter-round on a working array as read, compute and write back (spec/41_block.md R132), and what R133 to R135 make
of it: the in-place statements, quarter-rounds that change places, and rounds that can be undone. -/

namespace Sys2Proof.Machine

open Sys2Proof.Spec

/-! ### Four words of a working array -/

/-- The words a quarter-round reads. -/
def readQuarter (x : Words16) (a b c d : Fin 16) : Quarter := ⟨x[a], x[b], x[c], x[d]⟩

/-- The array with four words put in place, as a quarter-round writes them. -/
def writeQuarter (x : Words16) (a b c d : Fin 16) (q : Quarter) : Words16 :=
  (((x.set a q.a).set b q.b).set c q.c).set d q.d

/-- The quarter-round of four words given together. -/
def Quarter.round (q : Quarter) : Quarter := quarterRound q.a q.b q.c q.d

/-- A quarter-round reads four words, computes, and writes them back (R132). -/
theorem qr_eq_writeQuarter (x : Words16) (a b c d : Fin 16) :
    qr x a b c d = writeQuarter x a b c d (readQuarter x a b c d).round := rfl

/-- A write of four words leaves the others. -/
theorem writeQuarter_outside {a b c d i : Fin 16} (hi : i ∉ [a, b, c, d]) (x : Words16) (q : Quarter) :
    (writeQuarter x a b c d q)[i] = x[i] := by
  simp only [List.mem_cons, List.not_mem_nil, or_false, not_or, ← Fin.val_inj] at hi
  obtain ⟨ha, hb, hc, hd⟩ := hi
  simp [writeQuarter, Ne.symm ha, Ne.symm hb, Ne.symm hc, Ne.symm hd]

/-- The words a write reaches do not depend on the array it writes to. -/
theorem writeQuarter_inside {a b c d i : Fin 16} (hi : i ∈ [a, b, c, d]) (x y : Words16) (q : Quarter) :
    (writeQuarter x a b c d q)[i] = (writeQuarter y a b c d q)[i] := by
  simp only [List.mem_cons, List.not_mem_nil, or_false, ← Fin.val_inj] at hi
  simp only [writeQuarter, Fin.getElem_fin, Vector.getElem_set]
  split_ifs with hd hc hb ha
  · rfl
  · rfl
  · rfl
  · rfl
  · omega

/-- Of two writes to the same words the second stays. -/
theorem writeQuarter_writeQuarter (x : Words16) (a b c d : Fin 16) (q r : Quarter) :
    writeQuarter (writeQuarter x a b c d q) a b c d r = writeQuarter x a b c d r := by
  refine Vector.ext fun i hi => ?_
  by_cases hmem : (⟨i, hi⟩ : Fin 16) ∈ [a, b, c, d]
  · exact writeQuarter_inside hmem _ _ r
  · exact ((writeQuarter_outside hmem _ r).trans (writeQuarter_outside hmem x q)).trans (writeQuarter_outside hmem x r).symm

/-- Words written back as they were read leave the array. -/
theorem writeQuarter_readQuarter (x : Words16) (a b c d : Fin 16) :
    writeQuarter x a b c d (readQuarter x a b c d) = x := by
  simp [writeQuarter, readQuarter]

/-- Four distinct indices, as the numbers the array is read and written at. -/
theorem val_ne_of_nodup {a b c d : Fin 16} (h : [a, b, c, d].Nodup) :
    b.val ≠ a.val ∧ c.val ≠ a.val ∧ d.val ≠ a.val ∧ c.val ≠ b.val ∧ d.val ≠ b.val ∧ d.val ≠ c.val := by
  simp only [List.nodup_cons, List.mem_cons, List.not_mem_nil, or_false, not_or, ← Fin.val_inj] at h
  obtain ⟨⟨hab, hac, had⟩, ⟨hbc, hbd⟩, hcd, -⟩ := h
  exact ⟨Ne.symm hab, Ne.symm hac, Ne.symm had, Ne.symm hbc, Ne.symm hbd, Ne.symm hcd⟩

/-- Words at distinct indices are read as they were written. -/
theorem readQuarter_writeQuarter {a b c d : Fin 16} (h : [a, b, c, d].Nodup) (x : Words16) (q : Quarter) :
    readQuarter (writeQuarter x a b c d q) a b c d = q := by
  obtain ⟨hba, hca, hda, hcb, hdb, hdc⟩ := val_ne_of_nodup h
  simp [readQuarter, writeQuarter, hba, hca, hda, hcb, hdb, hdc]

/-! ### The statements of R132 run in place -/

section InPlace

variable {a b c d : Fin 16} (h : [a, b, c, d].Nodup)
include h

/-- A write to one of four words just written changes that word of the four. -/
theorem set_writeQuarter (x : Words16) (q : Quarter) (v : Word) :
    (writeQuarter x a b c d q).set a v = writeQuarter x a b c d { q with a := v } ∧
    (writeQuarter x a b c d q).set b v = writeQuarter x a b c d { q with b := v } ∧
    (writeQuarter x a b c d q).set c v = writeQuarter x a b c d { q with c := v } ∧
    (writeQuarter x a b c d q).set d v = writeQuarter x a b c d { q with d := v } := by
  obtain ⟨hba, hca, hda, hcb, hdb, hdc⟩ := val_ne_of_nodup h
  refine ⟨?_, ?_, ?_, ?_⟩
  · simp only [writeQuarter]
    rw [Vector.set_comm _ _ hda, Vector.set_comm _ _ hca, Vector.set_comm _ _ hba,
      Vector.set_set]
  · simp only [writeQuarter]
    rw [Vector.set_comm _ _ hdb, Vector.set_comm _ _ hcb, Vector.set_set]
  · simp only [writeQuarter]
    rw [Vector.set_comm _ _ hdc, Vector.set_set]
  · simp only [writeQuarter, Vector.set_set]

/-- The first and fifth statements. -/
theorem addInto_ab (x : Words16) (q : Quarter) :
    addInto (writeQuarter x a b c d q) a b = writeQuarter x a b c d { q with a := q.a + q.b } := by
  have hread := readQuarter_writeQuarter h x q
  have ha : (writeQuarter x a b c d q)[a] = q.a := congrArg Quarter.a hread
  have hb : (writeQuarter x a b c d q)[b] = q.b := congrArg Quarter.b hread
  rw [addInto, ha, hb, (set_writeQuarter h x q _).1]

/-- The third and seventh statements. -/
theorem addInto_cd (x : Words16) (q : Quarter) :
    addInto (writeQuarter x a b c d q) c d = writeQuarter x a b c d { q with c := q.c + q.d } := by
  have hread := readQuarter_writeQuarter h x q
  have hc : (writeQuarter x a b c d q)[c] = q.c := congrArg Quarter.c hread
  have hd : (writeQuarter x a b c d q)[d] = q.d := congrArg Quarter.d hread
  obtain ⟨-, -, hset, -⟩ := set_writeQuarter h x q (q.c + q.d)
  rw [addInto, hc, hd, hset]

/-- The second and sixth statements. -/
theorem xorRotInto_da (x : Words16) (q : Quarter) (n : Nat) :
    xorRotInto (writeQuarter x a b c d q) d a n = writeQuarter x a b c d { q with d := rotl (q.d ^^^ q.a) n } := by
  have hread := readQuarter_writeQuarter h x q
  have ha : (writeQuarter x a b c d q)[a] = q.a := congrArg Quarter.a hread
  have hd : (writeQuarter x a b c d q)[d] = q.d := congrArg Quarter.d hread
  obtain ⟨-, -, -, hset⟩ := set_writeQuarter h x q (rotl (q.d ^^^ q.a) n)
  rw [xorRotInto, hd, ha, hset]

/-- The fourth and eighth statements. -/
theorem xorRotInto_bc (x : Words16) (q : Quarter) (n : Nat) :
    xorRotInto (writeQuarter x a b c d q) b c n = writeQuarter x a b c d { q with b := rotl (q.b ^^^ q.c) n } := by
  have hread := readQuarter_writeQuarter h x q
  have hb : (writeQuarter x a b c d q)[b] = q.b := congrArg Quarter.b hread
  have hc : (writeQuarter x a b c d q)[c] = q.c := congrArg Quarter.c hread
  obtain ⟨-, hset, -, -⟩ := set_writeQuarter h x q (rotl (q.b ^^^ q.c) n)
  rw [xorRotInto, hb, hc, hset]

/-- The eight statements run in order on four words just written are their quarter-round, written back (R132). -/
theorem qrInPlace_writeQuarter (x : Words16) (q : Quarter) :
    qrInPlace (writeQuarter x a b c d q) a b c d = writeQuarter x a b c d q.round := by
  simp only [qrInPlace, addInto_ab h, addInto_cd h, xorRotInto_da h, xorRotInto_bc h, Quarter.round, quarterRound]

/-- The model's quarter-round is the pseudocode's, for distinct indices (R132). -/
theorem qr_eq_qrInPlace (x : Words16) : qr x a b c d = qrInPlace x a b c d := by
  rw [qr_eq_writeQuarter, ← qrInPlace_writeQuarter h, writeQuarter_readQuarter]

end InPlace

/-- Settles O20: the in-place statements by `qr_eq_qrInPlace`, the worked example by computing it. -/
theorem quarterRoundInPlace : Obligations.QuarterRoundInPlace :=
  ⟨fun x _ _ _ _ h => qr_eq_qrInPlace h x, by decide⟩

/-! ### Quarter-rounds on disjoint words -/

/-- Writes to disjoint words may change places. -/
theorem writeQuarter_comm {a b c d a' b' c' d' : Fin 16} (h : [a, b, c, d].Disjoint [a', b', c', d']) (x : Words16)
    (q r : Quarter) :
    writeQuarter (writeQuarter x a b c d q) a' b' c' d' r = writeQuarter (writeQuarter x a' b' c' d' r) a b c d q := by
  refine Vector.ext fun i hi => ?_
  by_cases hmem : (⟨i, hi⟩ : Fin 16) ∈ [a, b, c, d]
  · exact (writeQuarter_outside (h hmem) _ r).trans (writeQuarter_inside hmem _ _ q)
  · refine Eq.trans ?_ (writeQuarter_outside hmem _ q).symm
    by_cases hmem' : (⟨i, hi⟩ : Fin 16) ∈ [a', b', c', d']
    · exact writeQuarter_inside hmem' _ _ r
    · exact (writeQuarter_outside hmem' _ r).trans
        ((writeQuarter_outside hmem x q).trans (writeQuarter_outside hmem' x r).symm)

/-- A write leaves what is read at disjoint words. -/
theorem readQuarter_writeQuarter_disjoint {a b c d a' b' c' d' : Fin 16} (h : [a, b, c, d].Disjoint [a', b', c', d'])
    (x : Words16) (q : Quarter) :
    readQuarter (writeQuarter x a b c d q) a' b' c' d' = readQuarter x a' b' c' d' := by
  have hout : ∀ i ∈ [a', b', c', d'], (writeQuarter x a b c d q)[i] = x[i] :=
    fun i hi => writeQuarter_outside (fun hmem => h hmem hi) x q
  rw [readQuarter, hout a' (by simp), hout b' (by simp), hout c' (by simp), hout d' (by simp), readQuarter]

/-- Settles O21: neither quarter-round reads what the other writes (`readQuarter_writeQuarter_disjoint`), and their writes
may change places (`writeQuarter_comm`). -/
theorem disjointQuarterRoundsCommute : Obligations.DisjointQuarterRoundsCommute := by
  intro x a b c d a' b' c' d' h
  have hdisj : [a, b, c, d].Disjoint [a', b', c', d'] := List.disjoint_of_nodup_append h
  simp only [qr_eq_writeQuarter]
  rw [readQuarter_writeQuarter_disjoint hdisj, readQuarter_writeQuarter_disjoint hdisj.symm, writeQuarter_comm hdisj]

/-! ### Block(s) -/

/-- A double-round is one pass of the loop of R135: the in-place quarter-rounds are the model's. -/
theorem doubleRoundInPlace_eq (x : Words16) : doubleRoundInPlace x = diagonalRound (columnRound x) := by
  have hqr : ∀ (y : Words16) {a b c d : Fin 16}, [a, b, c, d].Nodup → qrInPlace y a b c d = qr y a b c d :=
    fun y _ _ _ _ h => (qr_eq_qrInPlace h y).symm
  simp only [doubleRoundInPlace, diagonalRound, columnRound]
  repeat rw [hqr _ (by decide)]

/-- `n` double-rounds are `n` passes of the loop. -/
theorem doubleRounds_eq_iterate (n : Nat) (x : Words16) : doubleRounds n x = doubleRoundInPlace^[n] x := by
  induction n generalizing x with
  | zero => rfl
  | succ n ih => rw [doubleRounds, ih, Function.iterate_succ_apply, doubleRoundInPlace_eq]

/-- Settles O22: the double-rounds are the passes (`doubleRounds_eq_iterate`), and both sides add the state word. -/
theorem blockFollowsPseudocode : Obligations.BlockFollowsPseudocode := by
  intro s i
  rw [← doubleRounds_eq_iterate]
  simp [block, Config.rounds]

/-! ### The rounds can be undone -/

/-- The statements of R132 undone from the last to the first. -/
def Quarter.unround (q : Quarter) : Quarter :=
  let b := rotl q.b 25 ^^^ q.c
  let c := q.c - q.d
  let d := rotl q.d 24 ^^^ q.a
  let a := q.a - b
  let b := rotl b 20 ^^^ c
  let c := c - d
  let d := rotl d 16 ^^^ a
  ⟨a - b, b, c, d⟩

/-- A rotation is undone by the rest of a full turn (R131). -/
theorem rotl_rotl_cancel (v : Word) {m n : Nat} (hm : m < 32) (hn : n < 32) (hsum : m + n = 32) :
    rotl (rotl v m) n = v := by
  rw [rotl_rotl v m n hm hn, hsum, Nat.mod_self, rotl_zero]

/-- The quarter-round of four words can be undone. -/
theorem unround_round (q : Quarter) : q.round.unround = q := by
  have h7 := fun v : Word => rotl_rotl_cancel v (m := 7) (n := 25) (by decide) (by decide) rfl
  have h8 := fun v : Word => rotl_rotl_cancel v (m := 8) (n := 24) (by decide) (by decide) rfl
  have h12 := fun v : Word => rotl_rotl_cancel v (m := 12) (n := 20) (by decide) (by decide) rfl
  have h16 := fun v : Word => rotl_rotl_cancel v (m := 16) (n := 16) (by decide) (by decide) rfl
  have hxor : ∀ v w : Word, v ^^^ w ^^^ w = v := fun v w => by rw [BitVec.xor_assoc, BitVec.xor_self, BitVec.xor_zero]
  simp only [Quarter.round, quarterRound, Quarter.unround, h7, h8, h12, h16, hxor, BitVec.add_sub_cancel]

/-- A quarter-round on distinct indices loses no word: the words it leaves alone are kept, and the four it writes can be
computed back. -/
theorem qr_injective {a b c d : Fin 16} (h : [a, b, c, d].Nodup) : Function.Injective fun x => qr x a b c d := by
  refine Function.LeftInverse.injective
    (g := fun y => writeQuarter y a b c d (readQuarter y a b c d).unround) fun x => ?_
  simp only [qr_eq_writeQuarter]
  rw [readQuarter_writeQuarter h, unround_round, writeQuarter_writeQuarter, writeQuarter_readQuarter]

theorem columnRound_injective : Function.Injective columnRound := fun _ _ h =>
  qr_injective (by decide) (qr_injective (by decide) (qr_injective (by decide) (qr_injective (by decide) h)))

theorem diagonalRound_injective : Function.Injective diagonalRound := fun _ _ h =>
  qr_injective (by decide) (qr_injective (by decide) (qr_injective (by decide) (qr_injective (by decide) h)))

/-- Settles O23, by induction on the number of double-rounds; each round is injective. -/
theorem doubleRoundsInjective : Obligations.DoubleRoundsInjective := by
  intro n
  induction n with
  | zero => exact fun x y h => h
  | succ n ih => exact fun x y h => columnRound_injective (diagonalRound_injective (ih _ _ h))

end Sys2Proof.Machine
end

section
/-! The commands that generate a block (spec/41_block.md R136 to R147): the bytes they deliver, the counter they advance, and
a GENBLK between PROCESS commands (spec/70_reset_and_hazards.md R228). -/

namespace Sys2Proof.Machine

open Sys2Proof.Spec

/-! ### The counter advance -/

/-- The context after an advance is the context after one block (R138, R139). -/
theorem advance_eq_contextAfter_one (mode : CarryMode) (s : Words16) : advance mode s = contextAfter mode s 1 := by
  rw [← contextAfter_advance mode s 0, contextAfter_zero]

/-- Two advances are two blocks (R138, R139). -/
theorem advance_advance_eq_contextAfter_two (mode : CarryMode) (s : Words16) :
    advance mode (advance mode s) = contextAfter mode s 2 := by
  rw [advance_eq_contextAfter_one mode (advance mode s), contextAfter_advance]

/-- Word 12 is 0 after an advance exactly when it was at its largest value (R138). -/
theorem advance_word12_eq_zero_iff (mode : CarryMode) (s : Words16) :
    (advance mode s)[12] = 0 ↔ s[12] = 0xFFFFFFFF := by
  rw [advance_word12, word_succ_eq_zero, ← BitVec.toNat_inj]
  rfl

/-- GENBLK, and a PROCESS that runs out of buffered bytes, advance the counter once, with no error (R137, R138, R140). -/
theorem generating_advances {s : State} {i : Instr} (hr : s.ready = true)
    (hi : i = .genblk ∨ ∃ n, s.avail < n ∧ n ≤ 64 ∧ i = .process n) :
    ∃ t : State, exec i s = .next t ∧ t.s = advance s.cfg.carryMode s.s ∧ t.lastErr = 0 ∧
      t.errSticky = s.errSticky ∧ t.ready = true := by
  obtain rfl | ⟨n, hfresh, hn, rfl⟩ := hi
  · exact ⟨_, exec_of_effect (.genblk hr), rfl, rfl, rfl, hr⟩
  · exact ⟨_, exec_of_effect (.processFresh n hr hn hfresh), rfl, rfl, rfl, hr⟩

/-- Settles O26: a generating command advances the context (`generating_advances`), and the advance adds one to the 64-bit
counter (`counter64_advance`). -/
theorem counter64AdvancesByOne : Obligations.Counter64AdvancesByOne := by
  intro s i hmode hr hi
  obtain ⟨t, hexec, hs, herr, hsticky, hready⟩ := generating_advances hr hi
  rw [hmode] at hs
  refine ⟨t, hexec, ?_, ?_, fun k h12 h13 => ?_, herr, hsticky, hready⟩
  · exact hs ▸ counter64_advance .c64 s.s
  · exact hs ▸ advance_word12_eq_zero_iff .c64 s.s
  · exact hs ▸ advance_c64_keeps s.s k k.isLt h12 h13

/-- Settles O27: a generating command advances the context (`generating_advances`), and the advance adds one to the 128-bit
number (`counter128_advance`). -/
theorem counter128AdvancesByOne : Obligations.Counter128AdvancesByOne := by
  intro s i hmode hr hi
  obtain ⟨t, hexec, hs, -⟩ := generating_advances hr hi
  rw [hmode] at hs
  refine ⟨t, hexec, ?_, fun k hk => hs ▸ advance_below12 .c128 s.s k hk⟩
  rw [hs, ← counter128_toNat, counter128_advance, BitVec.toNat_add, counter128_toNat]
  rfl

/-! ### GENBLK -/

/-- GENBLK has no argument, so it has one word (R93, R145). -/
theorem decode_eq_genblk_iff (v : Word) : decode v = .ok .genblk ↔ v = 0x00000003 :=
  ⟨fun h => (encode_of_decode h).1.symm, fun h => h ▸ decode_encode (i := .genblk) rfl⟩

/-- Settles O25, by its equation in a READY context (`execGenblk_ready`) and in one that is not (`execGenblk_notReady`). -/
theorem genblkDeliversBlock : Obligations.GenblkDeliversBlock := by
  refine ⟨decode_eq_genblk_iff, fun s hr => ?_, fun s hr => execGenblk_notReady s hr⟩
  exact ⟨_, execGenblk_ready s hr, fun _ => rfl, advance_eq_contextAfter_one _ _, rfl⟩

/-- Settles O34: GENBLK leaves the buffer, so the PROCESS takes its old tail and then the block of the advanced context
(`process_dout`). -/
theorem genblkInsideStream : Obligations.GenblkInsideStream := by
  intro s n hr _ hfresh hn
  obtain ⟨-, hgenblk, -⟩ := genblkDeliversBlock
  obtain ⟨t, hexec, -, hs, hframe⟩ := hgenblk s hr
  have hcfg : t.cfg = s.cfg := by rw [hframe]
  have hks : t.ks = s.ks := by rw [hframe]
  have hdin : t.din = s.din := by rw [hframe]
  have havail : t.avail = s.avail := by rw [hframe]
  have hready : t.ready = true := by rw [hframe, hr]
  obtain ⟨u, hexec', hdout⟩ := process_dout hready (by omega : 1 ≤ n) hn
  obtain ⟨u', hexec'', hs', -⟩ := generating_advances hready (.inr ⟨n, havail ▸ hfresh, hn, rfl⟩)
  obtain rfl : u = u' := Host.Outcome.next.inj (hexec'.symm.trans hexec'')
  refine ⟨t, u, hexec, hexec', havail, hks, hs, fun j hj => ?_, fun j hj hjn => ?_, ?_⟩
  · rw [hdout j (by omega), keystreamByte, havail, if_pos hj, hdin, hks]
  · rw [hdout j hjn, keystreamByte, havail, if_neg (by omega), hdin]
  · rw [hs', hcfg, hs, ← advance_eq_contextAfter_one, advance_advance_eq_contextAfter_two]

/-! ### The bytes of a block -/

/-- Byte j of word i of an array (R136). -/
theorem byteAt_word_lane (w : Words16) (i j : Nat) (hi : i < 16) (hj : j < 4) :
    byteAt w (4 * i + j) = w[i].extractLsb' (8 * j) 8 := by
  have hword : (4 * i + j) / 4 = i := by omega
  have hlane : (4 * i + j) % 4 = j := by omega
  simp only [byteAt_eq_lane w (4 * i + j) (by omega), hword, hlane]

/-- The context of a 32-byte SETUP with zero key and nonce (R112). -/
def zeroKeyContext : Words16 := contextWords constants32 #v[0, 0, 0, 0] #v[0, 0, 0, 0] #v[0, 0]

/-- The first word of its block, by running the block function (R136). -/
theorem block_zeroKeyContext_word0 : (block zeroKeyContext)[0] = 0xADE0B876 := by decide +kernel

/-- SETUP 32 with zero key and nonce loads that context, whatever else the state holds (R112, R115). -/
theorem setup32_zero_context {s t : State} (hkey : ∀ i : Fin 8, s.key[i] = 0) (hnonce : ∀ i : Fin 2, s.nonceIn[i] = 0)
    (h : exec (.setup 32) s = .next t) : t.s = zeroKeyContext ∧ t.ready = true := by
  have hzeros : ∀ i : Fin 8, State.reset.key[i] = 0 := by decide
  have hpair : s.nonceIn = State.reset.nonceIn := by
    refine Vector.ext fun i hi => (hnonce ⟨i, hi⟩).trans ?_
    revert i
    decide
  obtain ⟨hs, -, -, hready⟩ := setup_context_congr (.inr rfl) (fun i _ => (hkey i).trans (hzeros i).symm) hpair h
    (execSetup_32 State.reset)
  exact ⟨hs, hready⟩

/-- GENBLK on a READY context leaves its block in DOUT (R145). -/
theorem dout_of_genblk {s t : State} (hr : s.ready = true) (h : exec .genblk s = .next t) : t.dout = block s.s := by
  cases (execGenblk_ready s hr).symm.trans h
  rfl

/-- Settles O24: DOUT and the buffer hold the block, whose bytes are the lanes of its words (`byteAt_word_lane`). -/
theorem blockIsSerialisedLittleEndian : Obligations.BlockIsSerialisedLittleEndian := by
  refine ⟨fun s i j hi hj hr => ?_, fun s n i j hi hj hr hfresh hn => ?_, fun s t u hkey hnonce hsetup hgenblk => ?_⟩
  · exact ⟨_, execGenblk_ready s hr, byteAt_word_lane _ i j hi hj⟩
  · exact ⟨_, exec_of_effect (.processFresh n hr hn hfresh), byteAt_word_lane _ i j hi hj⟩
  · obtain ⟨hs, hready⟩ := setup32_zero_context hkey hnonce hsetup
    have hword : u.dout[0] = 0xADE0B876 := by
      rw [dout_of_genblk hready hgenblk, hs, block_zeroKeyContext_word0]
    have hlane : ∀ j < 4, byteAt u.dout j = (0xADE0B876 : Word).extractLsb' (8 * j) 8 := fun j hj => by
      rw [← hword, ← byteAt_word_lane u.dout 0 j (by decide) hj, Nat.mul_zero, Nat.zero_add]
    exact ⟨hword, hlane 0 (by decide), hlane 1 (by decide), hlane 2 (by decide), hlane 3 (by decide)⟩

end Sys2Proof.Machine
end

section
/-! PROCESS (spec/42_stream.md R160 to R171): what one command writes, the errors, that PROCESS undoes PROCESS, and where in the
keystream a byte of a chunked message stands. -/

namespace Sys2Proof.Machine

open Sys2Proof.Spec

/-! ### The words and the errors -/

/-- The words that decode to a command are its encoding alone, where it has one (R91, R92). -/
theorem decode_eq_ok_iff_encode (v : Word) (i : Instr) : decode v = .ok i ↔ i.wellFormed = true ∧ v = encode i := by
  constructor
  · intro h
    obtain ⟨hword, hwf⟩ := encode_of_decode h
    exact ⟨hwf, hword.symm⟩
  · rintro ⟨hwf, rfl⟩
    exact decode_encode hwf

/-- The words of PROCESS n (R92, R93). -/
theorem decode_eq_process_iff (v : Word) (n : Nat) :
    decode v = .ok (.process n) ↔ n < 256 ∧ v = BitVec.ofNat 32 (0x00000004 + 0x100 * n) := by
  have hwf : (Instr.process n).wellFormed = true ↔ n < 256 := decide_eq_true_iff
  rw [decode_eq_ok_iff_encode, ← hwf]
  exact and_congr_right fun h => by rw [encode_eq_ofNat h]; rfl

/-- Settles O29: the words are the encodings (`decode_eq_process_iff`), and each other clause is the equation of PROCESS in its
case. -/
theorem processErrorsAndEmptyInput : Obligations.ProcessErrorsAndEmptyInput := by
  refine ⟨decode_eq_process_iff, fun s n hlong => execProcess_tooLong n s hlong,
    fun s n hn hr => execProcess_notReady n s hn hr, fun s hr => execProcess_empty s hr, fun s n hn hr => ?_⟩
  by_cases hzero : n = 0
  · subst hzero
    exact ⟨_, execProcess_empty s hr, rfl⟩
  · exact ⟨_, execProcess_ready n s hn hzero hr, rfl⟩

/-! ### One command -/

/-- Settles O28: the bytes of DOUT are those of `byteAt_stream`, the rest of the state that of `stream_state`. -/
theorem processStreamsBytes : Obligations.ProcessStreamsBytes := by
  intro s n hr hpos hn
  refine ⟨_, execProcess_ready n s hn (by omega) hr, fun j hj htail => ?_, fun j hj hfresh => ?_, fun j hj h64 => ?_,
    fun htail => ?_, fun hfresh => ?_⟩
  · rw [succeed_dout, byteAt_stream n s j (by omega), if_pos hj, keystreamByte, if_pos htail]
  · rw [succeed_dout, byteAt_stream n s j (by omega), if_pos hj, keystreamByte, if_neg (Nat.not_lt.mpr hfresh)]
  · rw [succeed_dout, byteAt_stream n s j h64, if_neg (Nat.not_lt.mpr hj)]
  · rw [stream_state, if_neg (Nat.not_lt.mpr htail)]
    rfl
  · rw [stream_state, if_pos hfresh, ← advance_eq_contextAfter_one]
    rfl

/-- A PROCESS that finds AVAIL 0 takes a fresh block and advances the counter once (R164, R165). -/
theorem process_from_empty {s : State} {n : Nat} (hr : s.ready = true) (havail : s.avail = 0) (hpos : 1 ≤ n)
    (hn : n ≤ 64) : ∃ t, exec (.process n) s = .next t ∧ t.ready = true ∧ t.cfg = s.cfg ∧
      t.s = advance s.cfg.carryMode s.s ∧ t.ks = block s.s ∧ t.avail = 64 - n :=
  have hfresh : s.avail < n := by omega
  ⟨_, exec_of_effect (.processFresh n hr hn hfresh), hr, rfl, rfl, rfl, congrArg (fun a => 64 - (n - a)) havail⟩

/-- Settles O33: the first command leaves AVAIL 0, so both take a fresh block (`process_from_empty`). -/
theorem exhaustionBoundary : Obligations.ExhaustionBoundary := by
  intro s d hr havail
  obtain ⟨t, hexec, hready, hcfg, hs, -, hleft⟩ := process_from_empty hr havail (by decide) (le_refl 64)
  obtain ⟨u, hexec', -, -, hs', hks', hleft'⟩ :=
    process_from_empty (s := { t with din := d }) hready hleft (le_refl 1) (by decide)
  have htwo : u.s = advance t.cfg.carryMode t.s := hs'
  rw [hcfg, hs, advance_advance_eq_contextAfter_two] at htwo
  exact ⟨t, u, hexec, hexec', hleft, hleft', hks', hs.trans (advance_eq_contextAfter_one _ _), htwo⟩

/-! ### Encrypting twice -/

/-- Two windows have the same first n bytes exactly when they agree at every index below n. -/
theorem firstBytes_eq_iff (n : Nat) (w w' : Words16) :
    firstBytes n w = firstBytes n w' ↔ ∀ j < n, byteAt w j = byteAt w' j := by
  simp only [firstBytes, List.map_inj_left, List.mem_range]

/-- The keystream depends on s, ks and AVAIL alone (R168). -/
theorem keystreamByte_congr {s s' : State} (hs : s.s = s'.s) (hks : s.ks = s'.ks) (havail : s.avail = s'.avail) :
    keystreamByte s = keystreamByte s' := by
  funext j
  rw [keystreamByte, keystreamByte, hs, hks, havail]

/-- Settles O30: both commands XOR the same keystream bytes (`keystreamByte_congr`), and XOR with one byte twice is nothing. -/
theorem processIsInvolution : Obligations.ProcessIsInvolution := by
  intro n s₁ s₂ t₁ hr₁ hr₂ hpos hn hs hks havail hexec₁ hdin
  obtain ⟨t, hexec, hdout₁⟩ := process_dout hr₁ hpos hn
  obtain rfl : t = t₁ := Host.Outcome.next.inj (hexec.symm.trans hexec₁)
  obtain ⟨t₂, hexec₂, hdout₂⟩ := process_dout hr₂ hpos hn
  refine ⟨t₂, hexec₂, (firstBytes_eq_iff n _ _).mpr fun j hj => ?_⟩
  calc byteAt t₂.dout j
    _ = byteAt s₂.din j ^^^ keystreamByte s₂ j := hdout₂ j hj
    _ = (byteAt s₁.din j ^^^ keystreamByte s₁ j) ^^^ keystreamByte s₁ j := by
      rw [(firstBytes_eq_iff n _ _).mp hdin j hj, hdout₁ j hj, keystreamByte_congr hs hks havail]
    _ = byteAt s₁.din j := by rw [BitVec.xor_assoc, BitVec.xor_self, BitVec.xor_zero]

/-! ### The position law -/

/-- One more block after k blocks (R138, R139). -/
theorem advance_contextAfter (mode : CarryMode) (c : Words16) (k : Nat) :
    advance mode (contextAfter mode c k) = contextAfter mode c (k + 1) := by
  induction k generalizing c with
  | zero => rw [contextAfter_zero, advance_eq_contextAfter_one]
  | succ k ih => rw [← contextAfter_advance, ih, contextAfter_advance]

/-- Byte P of the keystream that starts at the front of the block of context c (R169). -/
def positionByte (mode : CarryMode) (c : Words16) (P : Nat) : Byte :=
  byteAt (block (contextAfter mode c (P / 64))) (P % 64)

/-- Where a stream that started at context c with no byte buffered stands after P bytes. At the end of a block nothing of the
buffer is left to be used. -/
structure StreamPos.At (mode : CarryMode) (c : Words16) (P : Nat) (p : StreamPos) : Prop where
  /-- A block is generated for every 64 bytes begun. -/
  context : p.s = contextAfter mode c ((P + 63) / 64)
  /-- The bytes left of the block begun. -/
  left : p.avail = (64 - P % 64) % 64
  /-- The block begun is in the buffer. -/
  buffer : P % 64 ≠ 0 → p.ks = block (contextAfter mode c (P / 64))

/-- Behind P bytes the next keystream byte is byte P, and the position is then that behind P + 1 bytes. -/
theorem StreamPos.At.next {mode : CarryMode} {c : Words16} {P : Nat} {p : StreamPos} (h : p.At mode c P) :
    (p.next mode).1 = positionByte mode c P ∧ (p.next mode).2.At mode c (P + 1) := by
  obtain ⟨hs, havail, hks⟩ := h
  by_cases hend : P % 64 = 0
  · have hempty : p.avail = 0 := by omega
    have hblocks : (P + 63) / 64 = P / 64 := by omega
    rw [hblocks] at hs
    rw [StreamPos.next, if_pos hempty, hs, advance_contextAfter]
    exact ⟨by rw [positionByte, hend], congrArg (contextAfter mode c) (by omega),
      (by omega : 63 = (64 - (P + 1) % 64) % 64), fun _ => congrArg (block <| contextAfter mode c ·) (by omega)⟩
  · have hleft : p.avail ≠ 0 := by omega
    have hoff : 64 - p.avail = P % 64 := by omega
    rw [StreamPos.next, if_neg hleft, hs, hks hend, hoff]
    exact ⟨rfl, congrArg (contextAfter mode c) (by omega), (by omega : p.avail - 1 = (64 - (P + 1) % 64) % 64),
      fun _ => congrArg (block <| contextAfter mode c ·) (by omega)⟩

/-- A message enciphered from behind P bytes is XORed with the keystream bytes from byte P on. -/
theorem StreamPos.At.encipher {mode : CarryMode} {c : Words16} {P : Nat} {p : StreamPos} (h : p.At mode c P)
    (bs : List Byte) :
    (StreamPos.encipher mode bs p).1 = bs.mapIdx (fun j b => b ^^^ positionByte mode c (P + j)) ∧
      (StreamPos.encipher mode bs p).2.At mode c (P + bs.length) := by
  induction bs generalizing P p with
  | nil => exact ⟨rfl, h⟩
  | cons b bs ih =>
    obtain ⟨hbyte, hnext⟩ := h.next
    obtain ⟨hout, hpos⟩ := ih hnext
    have hshift : ∀ j, P + 1 + j = P + (j + 1) := by omega
    simp only [hshift] at hout hpos
    exact ⟨by rw [StreamPos.encipher, hbyte, hout, List.mapIdx_cons]; rfl, hpos⟩

/-- With no byte buffered, a stream is at the front of the block of its context. -/
theorem streamPos_at_zero (mode : CarryMode) {s : State} (havail : s.avail = 0) : s.streamPos.At mode s.s 0 :=
  ⟨(contextAfter_zero mode s.s).symm, havail, fun h => absurd rfl h⟩

/-- Settles O31: the chunks are enciphered as one message (`feed_enciphers`) from the front of a block
(`StreamPos.At.encipher`). -/
theorem streamPositionLaw : Obligations.StreamPositionLaw := by
  intro s cs hr havail hcs
  obtain ⟨t, hfeed, hend⟩ := feed_enciphers cs hcs s hr (by omega)
  obtain ⟨hout, hpos⟩ := (streamPos_at_zero s.cfg.carryMode havail).encipher (message cs)
  rw [← hend, Nat.zero_add] at hpos
  refine ⟨_, t, hfeed, by rw [hout, List.length_mapIdx], fun P hP => ?_, hpos.left, hpos.context⟩
  rw [hout, List.getD_eq_getElem _ _ (by rwa [List.length_mapIdx]), List.getElem_mapIdx, List.getD_eq_getElem _ _ hP,
    Nat.zero_add]
  rfl

end Sys2Proof.Machine
end

section
/-! NOP and CLRERR (spec/43_control.md R180, R181), and what a command that succeeds does with ERR_STICKY
(spec/60_exceptions.md R198). -/

namespace Sys2Proof.Machine

/-! ### The words -/

/-- A command that has a word has one (R92, R93). -/
theorem decode_eq_ok_iff_eq_encode {i : Instr} (hwf : i.wellFormed = true) (v : Word) :
    decode v = .ok i ↔ v = encode i := by
  rw [decode_eq_ok_iff_encode, and_iff_right hwf]

/-! ### STATUS after a SETUP with an illegal length -/

/-- The error leaves READY 0, AVAIL 0, ERR_STICKY 1 and LAST_ERR 2, whatever the state was (R193). -/
theorem statusWord_invalidKeyLength (s : State) : statusWord (raise .invalidKeyLength s) = 0x00000022 := by
  rw [← BitVec.toNat_inj, statusWord_toNat]
  simp [CmdError.code]

/-- The bookkeeping of a success then clears LAST_ERR alone (R198). -/
theorem statusWord_succeed_invalidKeyLength (s : State) :
    statusWord (succeed (raise .invalidKeyLength s)) = 0x00000002 := by
  rw [← BitVec.toNat_inj, statusWord_toNat]
  simp

/-- Clearing the errors after it leaves no bit of STATUS set (R181). -/
theorem statusWord_clearErrors_invalidKeyLength (s : State) :
    statusWord (clearErrors (raise .invalidKeyLength s)) = 0x00000000 := by
  rw [← BitVec.toNat_inj, statusWord_toNat]
  simp

/-- SETUP 24 answers the state that records INVALID_KEY_LENGTH (R111). -/
theorem eq_raise_of_setup24 {s t : State} (h : exec (.setup 24) s = .next t) : t = raise .invalidKeyLength s :=
  (Host.Outcome.next.inj ((execSetup_other 24 s (by decide) (by decide)).symm.trans h)).symm

/-! ### ERR_STICKY -/

/-- A command but CLRERR that leaves no code in LAST_ERR keeps ERR_STICKY: every outcome that raises an error leaves its
code, and the others end in `succeed` (R192, R198). -/
theorem effect_success_keeps_sticky {i : Instr} {s t : State} (h : CommandEffect s i t) (hok : t.lastErr = 0)
    (hi : i ≠ .clrerr) : t.errSticky = s.errSticky := by
  cases h with
  | clrerr => exact absurd rfl hi
  | setupOther => simp [CmdError.code] at hok
  | processTooLong => simp [CmdError.code] at hok
  | notReady => simp [CmdError.code] at hok
  | _ => simp

/-- Settles O40, by the outcomes of a command (`effect_success_keeps_sticky`). -/
theorem successLeavesStickyUnchanged : Obligations.SuccessLeavesStickyUnchanged := fun _ _ _ h =>
  effect_success_keeps_sticky (effect_of_exec h)

/-! ### NOP and CLRERR -/

/-- Settles O9: NOP is `succeed`, which after the failed SETUP leaves ERR_STICKY as the one bit of STATUS
(`statusWord_succeed_invalidKeyLength`). -/
theorem nopWritesLastErrOnly : Obligations.NopWritesLastErrOnly := by
  have hnop : ∀ s : State, exec .nop s = .next (succeed s) := fun s => exec_of_effect .nop
  refine ⟨decode_eq_ok_iff_eq_encode (i := .nop) rfl, hnop, fun s t u hsetup h => ?_⟩
  obtain rfl := eq_raise_of_setup24 hsetup
  obtain rfl := Host.Outcome.next.inj ((hnop _).symm.trans h)
  exact ⟨statusWord_invalidKeyLength s, statusWord_succeed_invalidKeyLength s⟩

/-- Settles O10: CLRERR is `clearErrors`, alone among the outcomes in clearing ERR_STICKY (`effect_clears_sticky`), and after
the failed SETUP it leaves STATUS 0 (`statusWord_clearErrors_invalidKeyLength`). -/
theorem clrerrClearsErrorState : Obligations.ClrerrClearsErrorState := by
  have hclrerr : ∀ s : State, exec .clrerr s = .next (clearErrors s) := fun s => exec_of_effect .clrerr
  refine ⟨decode_eq_ok_iff_eq_encode (i := .clrerr) rfl, hclrerr,
    fun i s t h hs ht => effect_clears_sticky (effect_of_exec h) hs ht, fun s t u hsetup h => ?_⟩
  obtain rfl := eq_raise_of_setup24 hsetup
  obtain rfl := Host.Outcome.next.inj ((hclrerr _).symm.trans h)
  exact ⟨statusWord_invalidKeyLength s, statusWord_clearErrors_invalidKeyLength s⟩

end Sys2Proof.Machine
end

section
/-! The errors (spec/60_exceptions.md): the code a word written to CMD leaves (R191, R201), and that a step or a command that
leaves one is `raise` of an error and nothing else (R192, R193, R196). -/

namespace Sys2Proof.Machine

open Sys2Proof.Spec

/-! ### An error is `raise` and nothing else -/

/-- A command that leaves a code performs none of its own pseudocode beyond the check that failed (R192). -/
theorem effect_error_eq_raise {i : Instr} {s t : State} (h : CommandEffect s i t) (herr : t.lastErr ≠ 0) :
    ∃ e, t = raise e s := by
  cases h with
  | setupOther => exact ⟨_, rfl⟩
  | processTooLong => exact ⟨_, rfl⟩
  | notReady => exact ⟨_, rfl⟩
  | _ => exact absurd (by simp) herr

/-- A step on a word written to CMD that leaves a code raises an error on the state in which the access is taken (R192,
R194). -/
theorem writesCmd_error_eq_raise {s t : State} {v : Word} {rest : List BusEvent} (hw : WritesCmd s v rest)
    (h : step s = .next t) (herr : t.lastErr ≠ 0) : ∃ e, t = raise e (served s rest .writeOk) := by
  obtain ⟨-, ht⟩ | ⟨i, -, heffect⟩ := writesCmd_effect hw h
  · exact ⟨_, ht⟩
  · exact effect_error_eq_raise heffect herr

/-- Only INVALID_KEY_LENGTH has code 2 (R191). -/
theorem code_eq_two_iff (e : CmdError) : e.code = 2 ↔ e = .invalidKeyLength := by cases e <;> decide

/-- An error but INVALID_KEY_LENGTH is recorded, with no other effect (R192). -/
theorem raise_eq_recordError {e : CmdError} (he : e ≠ .invalidKeyLength) (s : State) :
    raise e s = recordError e.code s := by
  cases e with
  | invalidKeyLength => exact absurd rfl he
  | _ => rfl

/-! ### The obligations -/

/-- Settles O18, by the outcome of these commands on a context that is not READY. -/
theorem notReadyCommandsFail : Obligations.NotReadyCommandsFail := fun _ _ hr hneeds =>
  exec_of_effect (.notReady hr hneeds)

/-- Settles O37: a word written to CMD always gets a next state (`runCommand_next`), which holds its code
(`writesCmd_records`). -/
theorem everyCommandReportsItsCode : Obligations.EveryCommandReportsItsCode := by
  intro s v rest hw
  obtain ⟨t, ht⟩ := runCommand_next v (served s rest .writeOk)
  have hstep : step s = .next t := (step_writesCmd hw).trans ht
  exact ⟨t, hstep, (writesCmd_records hw hstep).1⟩

/-- Settles O38: a step that leaves a code is `raise` (`writesCmd_error_eq_raise`), and so is a command on a context that is
not READY, where it fails (`effect_notReady_fails`). -/
theorem errorsChangeOnlyErrorState : Obligations.ErrorsChangeOnlyErrorState := by
  refine ⟨fun s t v rest hw h herr => ?_, fun s t i hr hi h => ?_⟩
  · obtain ⟨e, rfl⟩ := writesCmd_error_eq_raise hw h herr
    rw [raise_lastErr, ne_eq, code_eq_two_iff]
    refine ⟨fun he => raise_eq_recordError he _, ?_⟩
    rintro rfl
    rfl
  · have heffect := effect_of_exec h
    have herr := effect_notReady_fails hr hi heffect
    obtain ⟨e, rfl⟩ := effect_error_eq_raise heffect herr
    exact ⟨herr, raise_s e s, raise_ks e s, raise_dout e s⟩

end Sys2Proof.Machine
end

section
/-! Reset (spec/70_reset_and_hazards.md R220, R221). -/

namespace Sys2Proof.Machine

open Sys2Proof.Spec

/-- The step on a reset event (R220). -/
theorem step_reset {s : State} {rest : List BusEvent} (hp : s.pending = .reset :: rest) :
    step s = .next (resetEngine { s with pending := rest }) :=
  step_cons s .reset rest hp

/-- A reset differs from the reset state of the build in the accesses to come and the answers given alone (R220). -/
theorem sameEngine_resetEngine (s : State) : SameEngine (resetEngine s) (State.resetWith s.cfg) := by
  simp [SameEngine]

/-- A step on a reset event leaves the engine state of the build's reset state (R220). -/
theorem step_reset_sameEngine {s : State} {rest : List BusEvent} (hp : s.pending = .reset :: rest) :
    ∃ t, step s = .next t ∧ SameEngine t (State.resetWith s.cfg) :=
  ⟨_, step_reset hp, sameEngine_resetEngine { s with pending := rest }⟩

/-- Settles O8: the step on the CMD write leaves the reset at the head and keeps the build (`step_takes_first`), so the next
one is the step on a reset event. -/
theorem resetRestoresResetValues : Obligations.ResetRestoresResetValues := by
  refine ⟨fun s rest hp => step_reset_sameEngine hp, fun s t v rest hw h => ?_,
    fun c => ⟨status_resetWith c, rfl, step_nil _ (resetWith_pending c)⟩⟩
  obtain ⟨hpend, hcfg, -, -⟩ := step_takes_first hw h
  rw [← hcfg]
  exact step_reset_sameEngine hpend

end Sys2Proof.Machine
end
